-- ==== Sys2Proof/Word.lean ====
section
/-! DEFINITION. The widths of the sequencer: bytes, 16-bit registers and counts (CNT_W and REGW of
00_scope.md R6), 32-bit command words (30_encoding.md R51). -/

namespace Sys2Proof

/-- A byte: a payload byte, a received byte, the address operand. -/
abbrev Byte := BitVec 8

/-- One register of the Register Interface, `REGW = 16` (R6). -/
abbrev Word := BitVec 16

/-- A byte count, `CNT_W = 16` (R6). -/
abbrev Count := BitVec 16

/-- A command word (R51). -/
abbrev CmdWord := BitVec 32

end Sys2Proof
end

