-- ==== Sys2Proof/Config.lean ====
section
/-! DEFINITION. The parameters of 00_scope.md R6 as plain data, their defaults, and the one free value
(10_state.md R18, 93_implementation_defined.md U4). -/

namespace Sys2Proof

/-- ADDR_FORM (R6, R55, 90_conflicts.md C2): how the address operand becomes the address byte. -/
inductive AddrForm where
  | left8
  | right7
  deriving DecidableEq, Repr

/-- MASTER_ENTERED (R6, 92_eei_decisions.md D8): what ends the wait of GEN_START.  `literal` is the
default of R6, BUSY = 0 and MSL = 1; `masterOnly` is MSL = 1; `sbOnly` asks nothing of STAT2, so that
the wait for SB in SEND_ADDR is the only one (log 26). -/
inductive MasterEntered where
  | literal
  | masterOnly
  | sbOnly
  deriving DecidableEq, Repr

/-- REG_LAYOUT (R31, R60): register offsets from a base address, and the bit of every field. -/
structure RegLayout where
  base : Nat
  ctrl : Nat
  data : Nat
  stat1 : Nat
  stat2 : Nat
  pe : Nat
  start : Nat
  stop : Nat
  ack : Nat
  pos : Nat
  sb : Nat
  addr : Nat
  btf : Nat
  rxne : Nat
  msl : Nat
  busy : Nat
  deriving DecidableEq, Repr

/-- A layout a controller can have: fields inside a register of 16 bits, distinct where they share
one, and four distinct registers (R31). -/
def RegLayout.wf (l : RegLayout) : Bool :=
  [l.pe, l.start, l.stop, l.ack, l.pos, l.sb, l.addr, l.btf, l.rxne, l.msl, l.busy].all (· < 16)
    && decide [l.pe, l.start, l.stop, l.ack, l.pos].Nodup
    && decide [l.sb, l.addr, l.btf, l.rxne].Nodup
    && decide [l.msl, l.busy].Nodup
    && decide [l.ctrl, l.data, l.stat1, l.stat2].Nodup

/-- The default layout of R60.  PRESUMED (log 8): the spec marks every cell of it as general
knowledge. -/
def RegLayout.stm32 : RegLayout where
  base := 0x40005400
  ctrl := 0x00
  data := 0x10
  stat1 := 0x14
  stat2 := 0x18
  pe := 0
  start := 8
  stop := 9
  ack := 10
  pos := 11
  sb := 0
  addr := 1
  btf := 2
  rxne := 6
  msl := 0
  busy := 1

/-- The parameters of R6 that a model takes as an argument. -/
structure Config where
  sinkCap : Nat
  pollBound : Option Nat
  addrForm : AddrForm
  masterEntered : MasterEntered
  layout : RegLayout
  windowTimely : Bool
  deriving DecidableEq, Repr

/-- The parameters R6 allows: a bound of at least one poll, and a possible layout. -/
def Config.wf (c : Config) : Bool :=
  c.layout.wf && (match c.pollBound with
    | none => true
    | some b => decide (1 ≤ b))

/-- The values of R6; SINK_CAP is open there and is the 255 of Scenario D here.
DESIGN CHOICE (log 7). -/
def Config.standard : Config where
  sinkCap := 255
  pollBound := none
  addrForm := .left8
  masterEntered := .literal
  layout := .stm32
  windowTimely := true

/-- FREE VALUE (log 11): the byte a read of DATA returns when no byte has been received (R18, U4), as
a function of how many such values were drawn before.  It has no body: nothing constrains it. -/
opaque Config.freeByte : Nat → Byte

end Sys2Proof
end

