-- ==== Sys2Proof/Syntax.lean ====
section
/-! DEFINITION. The command set (30_encoding.md R50, R54): one constructor per row of the opcode table,
the pseudo-instructions of R59, the read variants of 41_read_transaction.md R83. -/

namespace Sys2Proof

/-- Direction of an address phase: 0 write, 1 read (R51). -/
inductive Dir where
  | write
  | read
  deriving DecidableEq, Repr

/-- The commands of the sequencer (R50). -/
inductive Instr where
  /-- `GEN_START` (R67) -/
  | genStart
  /-- `SEND_ADDR a, d` (R68) -/
  | sendAddr (a : Byte) (d : Dir)
  /-- `CLR_ADDR` (R69) -/
  | clrAddr
  /-- `WRITE_BYTE v` (R70) -/
  | writeByte (v : Byte)
  /-- `GEN_STOP` (R71) -/
  | genStop
  /-- `READ a, n` (R80) -/
  | read (a : Byte) (n : Count)
  /-- `WRITE a, payload` with the count `n` of its word (R95) -/
  | write (a : Byte) (n : Count) (payload : List Byte)
  deriving DecidableEq, Repr

/-- Pseudo-instruction `SingleByte a` (R59). -/
def Instr.singleByte (a : Byte) : Instr := .read a 1

/-- Pseudo-instruction `DoubleByte a` (R59). -/
def Instr.doubleByte (a : Byte) : Instr := .read a 2

/-- Pseudo-instruction `BulkRead a, N`: "an assembler rejects `BulkRead` with `N < 3`" (R59). -/
def Instr.bulkRead (a : Byte) (n : Count) : Option Instr :=
  if n.toNat < 3 then none else some (.read a n)

/-- The three read variants, a "tagged union over {SingleByte, DoubleByte, BulkRead}" (R76, R83). -/
inductive ReadVariant where
  | singleByte
  | doubleByte
  | bulkRead
  deriving DecidableEq, Repr

end Sys2Proof
end

