-- ==== Sys2Proof/WellFormed.lean ====
section
/-! DEFINITION. The one check on a command as syntax: the payload of a WRITE has as many bytes as its
count says (30_encoding.md R51, R57).  Every other field admits every value of its width. -/

namespace Sys2Proof

/-- A command that the encoding can spell.  `READ` and `WRITE` with a zero count are legal commands:
they are "refused by value, not by spelling" (R56). -/
def Instr.wf : Instr → Bool
  | .genStart => true
  | .sendAddr _ _ => true
  | .clrAddr => true
  | .writeByte _ => true
  | .genStop => true
  | .read _ _ => true
  | .write _ n payload => payload.length == n.toNat

end Sys2Proof
end

