-- ==== Sys2Proof/Decode.lean ====
section
/-! DEFINITION. Decoding of the command stream (30_encoding.md R51-R58), total on any bytes and rejecting
by name, and the encoder written from the same tables. -/

namespace Sys2Proof

/-! ### Fields and byte order -/

/-- `op`, bits 31:28 (R51). -/
def CmdWord.op (w : CmdWord) : BitVec 4 := w.extractLsb' 28 4

/-- `z3`, bits 27:25, must be zero (R51). -/
def CmdWord.z3 (w : CmdWord) : BitVec 3 := w.extractLsb' 25 3

/-- `d`, bit 24 (R51). -/
def CmdWord.d (w : CmdWord) : BitVec 1 := w.extractLsb' 24 1

/-- `a`, bits 23:16 (R51). -/
def CmdWord.a (w : CmdWord) : Byte := w.extractLsb' 16 8

/-- `n`, bits 15:0 (R51). -/
def CmdWord.n (w : CmdWord) : Count := w.extractLsb' 0 16

/-- A word from its fields (R51). -/
def CmdWord.ofFields (op : BitVec 4) (d : BitVec 1) (a : Byte) (n : Count) : CmdWord :=
  op ++ (0#3) ++ d ++ a ++ n

/-- The serialised word is little-endian: byte 0 is bits 7:0 (R58). -/
def CmdWord.ofBytes (b0 b1 b2 b3 : Byte) : CmdWord := b3 ++ b2 ++ b1 ++ b0

/-- The four bytes of a word, lowest first (R58). -/
def CmdWord.bytes (w : CmdWord) : List Byte :=
  [w.extractLsb' 0 8, w.extractLsb' 8 8, w.extractLsb' 16 8, w.extractLsb' 24 8]

/-- The direction as the bit `d` (R51). -/
def Dir.bit : Dir → BitVec 1
  | .write => 0
  | .read => 1

/-- The direction that the bit `d` names (R51). -/
def Dir.ofBit (b : BitVec 1) : Dir := if b = 1 then .read else .write

/-! ### The opcode map -/

/-- The seven rows of the opcode map (R54). -/
inductive Mnemonic where
  | genStart
  | sendAddr
  | clrAddr
  | writeByte
  | genStop
  | read
  | write
  deriving DecidableEq, Repr

/-- The value of `op` in each row (R54). -/
def Mnemonic.op : Mnemonic → BitVec 4
  | .genStart => 0x1
  | .sendAddr => 0x2
  | .clrAddr => 0x3
  | .writeByte => 0x4
  | .genStop => 0x5
  | .read => 0x8
  | .write => 0x9

/-- One row of the opcode map: a word `w` selects it when `w & mask = match` (R54). -/
structure OpcodeRow where
  name : Mnemonic
  pattern : CmdWord
  mask : CmdWord
  deriving DecidableEq, Repr

/-- The opcode map (R54). -/
def opcodeMap : List OpcodeRow :=
  [⟨.genStart, 0x10000000, 0xFFFFFFFF⟩,
   ⟨.sendAddr, 0x20000000, 0xFE00FFFF⟩,
   ⟨.clrAddr, 0x30000000, 0xFFFFFFFF⟩,
   ⟨.writeByte, 0x40000000, 0xFF00FFFF⟩,
   ⟨.genStop, 0x50000000, 0xFFFFFFFF⟩,
   ⟨.read, 0x80000000, 0xFF000000⟩,
   ⟨.write, 0x90000000, 0xFF000000⟩]

/-- Whether a word selects a row (R54). -/
def OpcodeRow.selects (r : OpcodeRow) (w : CmdWord) : Bool := w &&& r.mask == r.pattern

/-- The command a row stands for, its operands taken from the word as unsigned fields (R55); the
payload of a `WRITE` is still missing. -/
def Mnemonic.command (m : Mnemonic) (w : CmdWord) : Instr :=
  match m with
  | .genStart => .genStart
  | .sendAddr => .sendAddr (CmdWord.a w) (Dir.ofBit (CmdWord.d w))
  | .clrAddr => .clrAddr
  | .writeByte => .writeByte (CmdWord.a w)
  | .genStop => .genStop
  | .read => .read (CmdWord.a w) (CmdWord.n w)
  | .write => .write (CmdWord.a w) (CmdWord.n w) []

/-! ### Decoding -/

/-- Why a word is illegal: (a) and (b) of R56. -/
inductive IllegalWord where
  /-- `op` is in no row (R56 a) -/
  | undefinedOpcode
  /-- `op` is defined and a must-be-zero bit of its format is 1 (R56 b) -/
  | mustBeZeroSet
  deriving DecidableEq, Repr

/-- Why a stream holds no complete command yet (R34, R57). -/
inductive Incomplete where
  /-- it ends inside the command word -/
  | word
  /-- it ends before the `n` payload bytes of a `WRITE` -/
  | payload
  deriving DecidableEq, Repr

/-- What stands at the head of a command stream. -/
inductive Decoded where
  | command (i : Instr) (rest : List Byte)
  | illegal (w : CmdWord) (why : IllegalWord) (rest : List Byte)
  | incomplete (why : Incomplete)
  deriving DecidableEq, Repr

/-- The row a word selects, or why it is illegal (R54, R56). -/
def decodeWord (w : CmdWord) : Except IllegalWord Mnemonic :=
  match opcodeMap.find? (fun r => r.selects w) with
  | some r => .ok r.name
  | none =>
    if opcodeMap.any (fun r => r.name.op == CmdWord.op w) then .error .mustBeZeroSet
    else .error .undefinedOpcode

/-- Give a command its payload: only a `WRITE` has one (R57), and it is not complete before all its
`n` bytes are there. -/
def takePayload (i : Instr) (rest : List Byte) : Decoded :=
  match i with
  | .write a n _ =>
    if n.toNat ≤ rest.length then .command (.write a n (rest.take n.toNat)) (rest.drop n.toNat)
    else .incomplete .payload
  | .genStart => .command .genStart rest
  | .sendAddr a d => .command (.sendAddr a d) rest
  | .clrAddr => .command .clrAddr rest
  | .writeByte v => .command (.writeByte v) rest
  | .genStop => .command .genStop rest
  | .read a n => .command (.read a n) rest

/-- The decoder, total on any bytes.  An illegal word consumes its four bytes and no payload (R56). -/
def decode : List Byte → Decoded
  | b0 :: b1 :: b2 :: b3 :: rest =>
    let w := CmdWord.ofBytes b0 b1 b2 b3
    match decodeWord w with
    | .ok m => takePayload (m.command w) rest
    | .error why => .illegal w why rest
  | _ => .incomplete .word

/-! ### Encoding -/

/-- The row of a command (R50, R54). -/
def Instr.mnemonic : Instr → Mnemonic
  | .genStart => .genStart
  | .sendAddr _ _ => .sendAddr
  | .clrAddr => .clrAddr
  | .writeByte _ => .writeByte
  | .genStop => .genStop
  | .read _ _ => .read
  | .write _ _ _ => .write

/-- The command word, fields a format leaves out being zero (R51). -/
def encodeWord : Instr → CmdWord
  | .genStart => CmdWord.ofFields Mnemonic.genStart.op 0 0 0
  | .sendAddr a d => CmdWord.ofFields Mnemonic.sendAddr.op d.bit a 0
  | .clrAddr => CmdWord.ofFields Mnemonic.clrAddr.op 0 0 0
  | .writeByte v => CmdWord.ofFields Mnemonic.writeByte.op 0 v 0
  | .genStop => CmdWord.ofFields Mnemonic.genStop.op 0 0 0
  | .read a n => CmdWord.ofFields Mnemonic.read.op 0 a n
  | .write a n _ => CmdWord.ofFields Mnemonic.write.op 0 a n

/-- The payload bytes of a command: only a `WRITE` has any (R57). -/
def Instr.payload : Instr → List Byte
  | .genStart => []
  | .sendAddr _ _ => []
  | .clrAddr => []
  | .writeByte _ => []
  | .genStop => []
  | .read _ _ => []
  | .write _ _ payload => payload

/-- The serialised command: the word, little-endian, then the payload in order (R58). -/
def encode (i : Instr) : List Byte := CmdWord.bytes (encodeWord i) ++ i.payload

/-! ### The host's view of one table row -/

/-- `count` bytes of a number, lowest first. -/
def leBytes : Nat → Nat → List Byte
  | 0, _ => []
  | count + 1, w => BitVec.ofNat 8 w :: leBytes count (w / 256)

/-- How many payload bytes follow the word with the number `w`: those of a `WRITE` (R57). -/
def payloadCount (w : Nat) : Nat :=
  match decodeWord (BitVec.ofNat 32 w) with
  | .ok .write => w % 65536
  | _ => 0

/-- The bytes of the instruction whose first `nbits` bits are `w` and whose further bits are 0: the
bytes of `w`, then zeros up to the instruction's length. -/
def tableBytes (nbits w : Nat) : List Byte :=
  leBytes (nbits / 8) w ++ List.replicate (4 + payloadCount w - nbits / 8) 0

/-- The command the decoder reads from such an instruction, none where it refuses. -/
def decodeTableWord (nbits w : Nat) : Option Instr :=
  match decode (tableBytes nbits w) with
  | .command i _ => some i
  | _ => none

end Sys2Proof
end

