-- ==== Sys2Proof/Machine/State.lean ====
section
/-! DEFINITION. The state of the machine as plain data (10_state.md), the moves of the other agents
(60_exceptions.md R119), the events of a trace (00_scope.md R8), the reasons a step can stop, and the
state after reset. -/

namespace Sys2Proof.Machine

/-- Run state (10_state.md R14). -/
inductive Fsm where
  | idle
  | run
  deriving DecidableEq, Repr

/-- The micro-step labels (10_state.md R13): the numbered lines of the pseudocode, named
`r<rule>_<line>`, and `IDLE`. -/
inductive Label where
  /-- `IDLE` -/
  | idle
  -- R67: GEN_START, and the start of READ and WRITE
  | r67_1 | r67_2 | r67_3
  -- R68: SEND_ADDR, and the address phase of READ and WRITE
  | r68_1 | r68_2 | r68_3 | r68_4
  -- R69: CLR_ADDR, and the clearing in WRITE
  | r69_1 | r69_2 | r69_3
  -- R70: WRITE_BYTE
  | r70_1 | r70_2 | r70_3
  -- R71: GEN_STOP
  | r71_1 | r71_2 | r71_3
  -- R81: READ, the checks before any event
  | r81_1 | r81_2
  -- R83: READ, entry and variant selection
  | r83_1 | r83_2
  -- R84: READ, N = 1
  | r84_1 | r84_2 | r84_3 | r84_4 | r84_5 | r84_6 | r84_7
  | r84_8 | r84_9 | r84_10 | r84_11 | r84_12
  -- R85: READ, N = 2
  | r85_1 | r85_2 | r85_3 | r85_4 | r85_5 | r85_6 | r85_7
  | r85_8 | r85_9 | r85_10 | r85_11 | r85_12 | r85_13 | r85_14
  | r85_15 | r85_16 | r85_17 | r85_18
  -- R86: READ, N ≥ 3
  | r86_1 | r86_2 | r86_3 | r86_4 | r86_5 | r86_6 | r86_7
  | r86_8 | r86_9 | r86_10 | r86_11 | r86_12 | r86_13 | r86_14
  | r86_15 | r86_16 | r86_17 | r86_18 | r86_19 | r86_20 | r86_21
  -- R95: WRITE
  | r95_1 | r95_2 | r95_3 | r95_4 | r95_5 | r95_6 | r95_7
  | r95_8 | r95_9
  -- R106: clean-up of READ after a timeout
  | r106_1 | r106_2
  -- R104 items (2) to (4): the end of a command with a timeout (log 20)
  | r104_2
  deriving DecidableEq, Repr

/-- The wait sites `W1` to `W13` (40_primitives.md R66). -/
inductive Site where
  | w1 | w2 | w3 | w4 | w5 | w6 | w7 | w8 | w9 | w10 | w11 | w12 | w13
  deriving DecidableEq, Repr

/-- The control fields of CTRL (10_state.md R17). -/
inductive CtlField where
  | pe | ack | start | stop | pos
  deriving DecidableEq, Repr

/-- A line of pseudocode (00_scope.md R8), with the label of the line that follows it. -/
inductive Line where
  /-- `CtlSet(f)` -/
  | ctlSet (f : CtlField) (next : Label)
  /-- `CtlClr(f)` -/
  | ctlClr (f : CtlField) (next : Label)
  /-- `IrqMask()` -/
  | irqMask (next : Label)
  /-- `IrqUnmask()` -/
  | irqUnmask (next : Label)
  /-- `_ <- Stat1()` -/
  | stat1 (next : Label)
  /-- `_ <- Stat2()` -/
  | stat2 (next : Label)
  /-- `DataWrite(AddrByte(x[a], x[d]))` -/
  | sendAddrByte (next : Label)
  /-- `DataWrite(x[a])` -/
  | sendData (next : Label)
  /-- `DataWrite(pl[x[idx]])` -/
  | sendPayload (next : Label)
  /-- `x[rxb] <- DataRead()` -/
  | recv (next : Label)
  /-- `SinkPush(x[rxb]) ; x[rem] <- x[rem] - 1` -/
  | push (next : Label)
  /-- `WaitUntil(w, poll, pred)` -/
  | wait (w : Site) (next : Label)
  /-- `if x[n] = 0 then raise InvalidRequest(0)` -/
  | requireCount (next : Label)
  /-- `if x[n] > SINK_CAP then raise OverflowRequest(0)` -/
  | requireCapacity (next : Label)
  /-- `x[rem] <- x[n] ; x[d] <- 1` -/
  | beginRead (next : Label)
  /-- `x[idx] <- 0 ; x[d] <- 0` -/
  | beginWrite (next : Label)
  /-- `upc <-` the first line of the variant that `x[n]` selects -/
  | selectVariant
  /-- `if x[rem] > 3 then upc <- more else upc <- done` -/
  | testRem (more done : Label)
  /-- `if x[idx] < x[n] then upc <- more else upc <- done` -/
  | testIdx (more done : Label)
  /-- `x[idx] <- x[idx] + 1` -/
  | nextIdx (next : Label)
  /-- `return` -/
  | ret
  /-- items (2) to (4) of `raise BusTimeout(w)` (60_exceptions.md R104) -/
  | endTimeout
  deriving DecidableEq, Repr

/-- The error results (60_exceptions.md R101).  ProtocolViolation has a code and is raised by no rule
(R107). -/
inductive CmdError where
  | overflowRequest
  | busTimeout
  | invalidRequest
  | protocolViolation
  deriving DecidableEq, Repr

/-- The events of a trace (00_scope.md R8), and the step of an interrupt handler, which the trace of
the whole system shows (60_exceptions.md R109). -/
inductive Event where
  /-- `CW(f,b)` -/
  | cw (f : CtlField) (b : Bool)
  /-- `CR(f)->b` -/
  | cr (f : CtlField) (b : Bool)
  /-- `S1->s`, the whole register -/
  | s1 (s : Word)
  /-- `S2->s`, the whole register -/
  | s2 (s : Word)
  /-- `DW(v)` -/
  | dw (v : Byte)
  /-- `DR->v` -/
  | dr (v : Byte)
  /-- `IM(b)` -/
  | im (b : Bool)
  /-- `PUSH(v)` -/
  | push (v : Byte)
  /-- `DONE(status, site)` -/
  | done (status : BitVec 3) (site : BitVec 4)
  /-- a step of the interrupt handler that serves request `n` -/
  | handler (n : Nat)
  deriving DecidableEq, Repr

/-- An access to the Register Interface by another master (70_reset_and_hazards.md R134). -/
inductive ForeignAccess where
  | ctlWrite (f : CtlField) (b : Bool)
  | ctlRead
  | stat1
  | stat2
  | dataRead
  | dataWrite (v : Byte)
  deriving DecidableEq, Repr

/-- Who moves next, and how (60_exceptions.md R119, log 2). -/
inductive Move where
  /-- the sequencer takes its step -/
  | sequencer
  /-- the controller changes STAT1 -/
  | stat1 (s : Word)
  /-- the controller changes STAT2 -/
  | stat2 (s : Word)
  /-- the controller receives a byte -/
  | receive (v : Byte)
  /-- the controller has sent the oldest enqueued byte -/
  | transmit
  /-- the controller clears START -/
  | clearStart
  /-- the controller clears STOP, the stop condition being on the bus -/
  | clearStop
  /-- an interrupt request arrives at the platform -/
  | irqRequest (n : Nat)
  /-- the handler of a pending request runs -/
  | irqHandler (n : Nat)
  /-- the consumer takes a byte from the sink -/
  | sinkPop
  /-- the host offers bytes on the command port -/
  | offer (bs : List Byte)
  /-- another master accesses the Register Interface -/
  | foreign (x : ForeignAccess)
  /-- the reset input of the sequencer -/
  | reset
  deriving DecidableEq, Repr

/-- Why the machine stops. -/
inductive Fault where
  /-- A data-phase action while ADDR is 1 (70_reset_and_hazards.md R130, 93_implementation_defined.md
  U2): raised by a write of a data byte, a read of DATA, a stop request, a wait on BTF or RXNE.  Safe. -/
  | addrNotCleared
  /-- A push onto a sink that holds SINK_CAP bytes (60_exceptions.md R120): raised by the pushes of
  READ.  Safe. -/
  | sinkOverrun
  /-- `upc` names no line of the command in flight, or no command is in flight: raised by every
  command and by `step`, in states no run reaches (log 23).  Safe. -/
  | strayLabel
  /-- `x[idx]` lies outside the payload: raised by WRITE, in states no run reaches (log 23).  Safe. -/
  | payloadMissing
  deriving DecidableEq, Repr

/-- Why a step has no meaning. -/
inductive Refusal where
  /-- An instruction without a meaning yet: raised by no arm of `exec`.  Safe. -/
  | notModelled (mnemonic : String)
  /-- Another master accesses the Register Interface while a command runs (60_exceptions.md R119,
  93_implementation_defined.md U3): raised by `step`.  Safe. -/
  | foreignAccess
  deriving DecidableEq, Repr

/-- The state: all that 10_state.md gives the machine, the parameters, and four fields of the model's
own (`raising`, `draws`, `agenda`, `trace`). -/
structure State where
  /-- run state (R14) -/
  fsm : Fsm
  /-- micro-step label (R13) -/
  upc : Label
  /-- interrupt mask IM (R15) -/
  im : Bool
  /-- result (R16) -/
  status : BitVec 3
  /-- wait site of a timeout (R16) -/
  site : BitVec 4
  /-- x[op] (R11) -/
  op : BitVec 4
  /-- x[a] (R11) -/
  a : Byte
  /-- x[d] (R11) -/
  d : Dir
  /-- x[n] (R11) -/
  n : Count
  /-- x[rem] (R11) -/
  rem : Count
  /-- x[idx] (R11) -/
  idx : Count
  /-- x[rxb] (R11) -/
  rxb : Byte
  /-- x[k] (R11, log 24) -/
  k : Nat
  /-- pl (R11) -/
  pl : List Byte
  /-- CTRL.PE (R17) -/
  pe : Bool
  /-- CTRL.ACK (R17, R21) -/
  ack : Bool
  /-- CTRL.START (R17) -/
  start : Bool
  /-- CTRL.STOP (R17) -/
  stop : Bool
  /-- CTRL.POS (R17) -/
  pos : Bool
  /-- STAT1 (R19) -/
  stat1 : Word
  /-- STAT2 (R20) -/
  stat2 : Word
  /-- DATA: bytes received and not yet read, oldest first (R18, R40) -/
  rx : List Byte
  /-- DATA: bytes enqueued to send, oldest first (R18, R40) -/
  tx : List Byte
  /-- the address-clear latch (R23 b) -/
  s1Latch : Bool
  /-- a start condition was requested, and no byte was written since (R40, log 9) -/
  startDue : Bool
  /-- an address byte was written, and ADDR has not shown the end of its address phase (R40, R42,
  log 9) -/
  addrSent : Bool
  /-- the Byte Sink, oldest first (R22) -/
  sink : List Byte
  /-- interrupt requests the platform keeps pending (R110) -/
  pending : List Nat
  /-- bytes standing at the command port (R52, R58) -/
  cmd : List Byte
  /-- the parameters (R6) -/
  cfg : Config
  /-- the model's own: the wait site of the timeout being ended (log 20) -/
  raising : Option Site
  /-- the model's own: free values drawn so far (log 11) -/
  draws : Nat
  /-- the model's own: who moves next (log 2) -/
  agenda : List Move
  /-- the model's own: the events so far, oldest first (R8, log 22) -/
  trace : List Event
  deriving DecidableEq, Repr

/-- The machine right after reset (R25, R125).  Where R25 says "unspecified" or "not constrained" the
value is a DESIGN CHOICE (log 4, log 5, log 6, log 7); CTRL holds what R25 requires at the first
command. -/
def State.reset : State where
  fsm := .idle
  upc := .idle
  im := false
  status := 0
  site := 0
  op := 0
  a := 0
  d := .write
  n := 0
  rem := 0
  idx := 0
  rxb := 0
  k := 0
  pl := []
  pe := true
  ack := true
  start := false
  stop := false
  pos := false
  stat1 := 0
  stat2 := 0
  rx := []
  tx := []
  s1Latch := false
  startDue := false
  addrSent := false
  sink := []
  pending := []
  cmd := []
  cfg := .standard
  raising := none
  draws := 0
  agenda := []
  trace := []

/-- The result of a step of this machine. -/
abbrev Out := Host.Outcome State Fault Refusal

end Sys2Proof.Machine
end

