-- ==== Sys2Proof/Machine/Flags.lean ====
section
/-! DEFINITION. The status flags of STAT1 and STAT2 (10_state.md R19, R20) read through REG_LAYOUT
(30_encoding.md R60), the conditions the wait sites await (40_primitives.md R66), the codes of the
result registers (30_encoding.md R62), and what is true of ADDR (20_memory.md R42). -/

namespace Sys2Proof.Machine

/-! ### Flags -/

/-- `SB` in a value of STAT1 (R19). -/
def sbOf (l : RegLayout) (w : Word) : Bool := w.getLsbD l.sb

/-- `ADDR` in a value of STAT1 (R19). -/
def addrOf (l : RegLayout) (w : Word) : Bool := w.getLsbD l.addr

/-- `BTF` in a value of STAT1 (R19). -/
def btfOf (l : RegLayout) (w : Word) : Bool := w.getLsbD l.btf

/-- `RXNE` in a value of STAT1 (R19). -/
def rxneOf (l : RegLayout) (w : Word) : Bool := w.getLsbD l.rxne

/-- `BUSY` in a value of STAT2 (R20). -/
def busyOf (l : RegLayout) (w : Word) : Bool := w.getLsbD l.busy

/-- `MSL` in a value of STAT2 (R20). -/
def mslOf (l : RegLayout) (w : Word) : Bool := w.getLsbD l.msl

/-- A register with one bit set. -/
def bitMask (i : Nat) : Word := 1#16 <<< i

/-- MASTER_ENTERED on a value of STAT2 (R6, R67 a, log 26). -/
def masterEntered (c : Config) (w : Word) : Bool :=
  match c.masterEntered with
  | .literal => !busyOf c.layout w && mslOf c.layout w
  | .masterOnly => mslOf c.layout w
  | .sbOnly => true

/-- CTRL as a whole register (R32, R60): the bits of its five fields, the others 0.  No rule uses
more of a read of CTRL than the one bit it asks for (R77). -/
def ctrlWord (s : State) : Word :=
  (if s.pe then bitMask s.cfg.layout.pe else 0) ||| (if s.start then bitMask s.cfg.layout.start else 0)
    ||| (if s.stop then bitMask s.cfg.layout.stop else 0) ||| (if s.ack then bitMask s.cfg.layout.ack else 0)
    ||| (if s.pos then bitMask s.cfg.layout.pos else 0)

/-! ### ADDR -/

/-- ADDR is 1: no data-phase action may be taken until it is cleared (R42, R130). -/
def addrHeld (s : State) : Bool := addrOf s.cfg.layout s.stat1

/-- A value of STAT1 with ADDR set. -/
def withAddr (l : RegLayout) (w : Word) : Word := w ||| bitMask l.addr

/-- A value of STAT1 with ADDR clear. -/
def withoutAddr (l : RegLayout) (w : Word) : Word := w &&& ~~~bitMask l.addr

/-! ### Wait sites -/

/-- The three kinds of poll (R66). -/
inductive Poll where
  | stat1
  | stat2
  | stopField
  deriving DecidableEq, Repr

/-- What a wait site polls (R66). -/
def Site.poll : Site → Poll
  | .w1 => .stat2
  | .w2 => .stat1
  | .w3 => .stat1
  | .w4 => .stat1
  | .w5 => .stopField
  | .w6 => .stat1
  | .w7 => .stopField
  | .w8 => .stat1
  | .w9 => .stopField
  | .w10 => .stat1
  | .w11 => .stat1
  | .w12 => .stat1
  | .w13 => .stopField

/-- The awaited condition of a wait site, on the registers the poll reads (R66). -/
def Site.awaited (w : Site) (s : State) : Bool :=
  match w with
  | .w1 => masterEntered s.cfg s.stat2
  | .w2 => sbOf s.cfg.layout s.stat1
  | .w3 => addrOf s.cfg.layout s.stat1
  | .w4 => btfOf s.cfg.layout s.stat1
  | .w5 => !s.stop
  | .w6 => rxneOf s.cfg.layout s.stat1
  | .w7 => !s.stop
  | .w8 => btfOf s.cfg.layout s.stat1
  | .w9 => !s.stop
  | .w10 => btfOf s.cfg.layout s.stat1
  | .w11 => btfOf s.cfg.layout s.stat1
  | .w12 => rxneOf s.cfg.layout s.stat1
  | .w13 => !s.stop

/-- The waits on BTF or RXNE are data-phase actions (R130). -/
def Site.dataPhase : Site → Bool
  | .w1 => false
  | .w2 => false
  | .w3 => false
  | .w4 => true
  | .w5 => false
  | .w6 => true
  | .w7 => false
  | .w8 => true
  | .w9 => false
  | .w10 => true
  | .w11 => true
  | .w12 => true
  | .w13 => false

/-- The number of a wait site, reported in `site` (R62, R66). -/
def Site.number : Site → BitVec 4
  | .w1 => 1
  | .w2 => 2
  | .w3 => 3
  | .w4 => 4
  | .w5 => 5
  | .w6 => 6
  | .w7 => 7
  | .w8 => 8
  | .w9 => 9
  | .w10 => 10
  | .w11 => 11
  | .w12 => 12
  | .w13 => 13

/-! ### Result codes -/

/-- The `status` of a success (R62). -/
def statusOk : BitVec 3 := 0

/-- The `status` of an error (R62, R101). -/
def CmdError.code : CmdError → BitVec 3
  | .overflowRequest => 1
  | .busTimeout => 2
  | .invalidRequest => 3
  | .protocolViolation => 4

/-! ### Masked windows -/

/-- The next event lies strictly between the first and the last event of a masked window, or is the
last (60_exceptions.md R111): the gaps in which WINDOW_TIMELY holds the controller's byte-level agent
off (R112). -/
def Label.insideWindow : Label → Bool
  | .r84_4 | .r84_5 => true
  | .r85_4 | .r85_5 => true
  | .r85_10 | .r85_11 => true
  | .r86_11 | .r86_12 | .r86_13 | .r86_14 => true
  | _ => false

end Sys2Proof.Machine
end

