-- ==== Sys2Proof/Machine/Operands.lean ====
section
/-! DEFINITION. Operand assembly (30_encoding.md R55): the address byte; the selection of the read
variant from the byte count (41_read_transaction.md R83). -/

namespace Sys2Proof.Machine

/-- `AddrByte(a, d)` under ADDR_FORM (R55, 90_conflicts.md C2).  Under `right7` the operand is a 7-bit
address; a set bit 7 of `a` is shifted out.  DESIGN CHOICE (log 33): the spec does not say what becomes of
it. -/
def addrByte (f : AddrForm) (a : Byte) (d : Dir) : Byte :=
  match f with
  | .left8 => (a &&& 0xFE) ||| (Dir.bit d).setWidth 8
  | .right7 => (a <<< 1) ||| (Dir.bit d).setWidth 8

/-- The variant of a read, selected from `x[n]` alone (R83). -/
def readVariant (n : Count) : ReadVariant :=
  if n = 1 then .singleByte
  else if n = 2 then .doubleByte
  else .bulkRead

/-- The first line of a variant (R83). -/
def variantEntry : ReadVariant → Label
  | .singleByte => .r84_1
  | .doubleByte => .r85_1
  | .bulkRead => .r86_1

end Sys2Proof.Machine
end

