-- ==== Sys2Proof/Machine/Ops.lean ====
section
/-! DEFINITION. The primitives of 00_scope.md R8 as operations on State, the polling loop
(40_primitives.md R65), the acceptance of a command (30_encoding.md R52), and the two ends of a
command: `return`, and `raise` with its clean-up (60_exceptions.md R104, R106), which stand here where
a processor has its exception entry and return. -/

namespace Sys2Proof.Machine

/-! ### Bookkeeping -/

/-- Append an event to the trace (R8). -/
def State.log (e : Event) (s : State) : State := { s with trace := s.trace ++ [e] }

/-- `upc <- l` (R8, R13). -/
def State.goto (l : Label) (s : State) : State := { s with upc := l }

/-- `x[k] <- k` (R8, R65). -/
def State.setK (k : Nat) (s : State) : State := { s with k := k }

/-- Remember, or forget, the wait site of a timeout that is being ended (log 20). -/
def State.setRaising (r : Option Site) (s : State) : State := { s with raising := r }

/-! ### Register accesses: the effect in the controller -/

/-- The control field `f` (R17). -/
def State.ctl (f : CtlField) (s : State) : Bool :=
  match f with
  | .pe => s.pe
  | .ack => s.ack
  | .start => s.start
  | .stop => s.stop
  | .pos => s.pos

/-- Change the control field `f` and no other (R32). -/
def State.setCtl (f : CtlField) (b : Bool) (s : State) : State :=
  match f with
  | .pe => { s with pe := b }
  | .ack => { s with ack := b }
  | .start => { s with start := b }
  | .stop => { s with stop := b }
  | .pos => { s with pos := b }

/-- An access other than a read of STAT1 leaves no half-done clearing of ADDR.  DEDUCED (log 10): "The
polls read `STAT2` only; they are not preceded by a `Stat1()`" (R67 b). -/
def State.dropLatch (s : State) : State := { s with s1Latch := false }

/-- A field write of CTRL as the controller sees it (R32).  A request for a start condition makes the
next byte written the address byte (R40, log 9). -/
def ctlWriteEffect (f : CtlField) (b : Bool) (s : State) : State :=
  { s.setCtl f b with startDue := s.startDue || (f == .start && b), s1Latch := false }

/-- A read of STAT1 arms the clearing of ADDR (R42). -/
def stat1Effect (s : State) : State := { s with s1Latch := true }

/-- A read of STAT2 right after a read of STAT1 clears ADDR, and with it the address phase it
acknowledges (log 9); with ADDR already 0 it changes nothing (R42, R69 c). -/
def stat2Effect (s : State) : State :=
  if s.s1Latch && addrHeld s then
    { s with stat1 := withoutAddr s.cfg.layout s.stat1, addrSent := false, s1Latch := false }
  else s.dropLatch

/-- A write of DATA enqueues one byte to send, "as the address byte when it follows a start condition
and as a data byte otherwise" (R40, log 9): an address byte begins an address phase, whoever writes it. -/
def dataWriteEffect (v : Byte) (s : State) : State :=
  { s with
    tx := s.tx ++ [v], addrSent := s.addrSent || s.startDue, startDue := false, s1Latch := false }

/-- The byte a read of DATA returns: the oldest received byte not yet read (R40); a free value when no
byte has been received (R18, U4, log 11). -/
def nextByte (s : State) : Byte :=
  match s.rx with
  | v :: _ => v
  | [] => Config.freeByte s.draws

/-- A read of DATA drains one received byte (R40), or uses up one free value. -/
def dataReadEffect (s : State) : State :=
  match s.rx with
  | _ :: rest => { s with rx := rest, s1Latch := false }
  | [] => { s with draws := s.draws + 1, s1Latch := false }

/-! ### The primitives, each with its event (R8) -/

/-- `CtlSet(f)`, `CtlClr(f)`: event `CW(f,b)`. -/
def ctlWrite (f : CtlField) (b : Bool) (s : State) : State := (ctlWriteEffect f b s).log (.cw f b)

/-- `CtlRead(f)`: event `CR(f)->b`. -/
def ctlRead (f : CtlField) (s : State) : State := s.dropLatch.log (.cr f (s.ctl f))

/-- `Stat1()`: event `S1->s`. -/
def readStat1 (s : State) : State := (stat1Effect s).log (.s1 s.stat1)

/-- `Stat2()`: event `S2->s`. -/
def readStat2 (s : State) : State := (stat2Effect s).log (.s2 s.stat2)

/-- `DataWrite(v)`: event `DW(v)`. -/
def dataWrite (v : Byte) (s : State) : State := (dataWriteEffect v s).log (.dw v)

/-- `x[rxb] <- DataRead()`: event `DR->v`. -/
def dataRead (s : State) : State :=
  { dataReadEffect s with rxb := nextByte s }.log (.dr (nextByte s))

/-- `IrqMask()` and `IrqUnmask()`: event `IM(b)`. -/
def setMask (b : Bool) (s : State) : State := { s with im := b }.log (.im b)

/-- `SinkPush(x[rxb]) ; x[rem] <- x[rem] - 1` onto a sink with room: event `PUSH(v)` (R82). -/
def sinkPush (s : State) : State :=
  { s with sink := s.sink ++ [s.rxb], rem := s.rem - 1 }.log (.push s.rxb)

/-- The poll that ends the address phase: the successful poll of W3, which "is not counted as the first half
of the `ADDR` clearing" (R68 d). -/
def endsAddressPhase (w : Site) (s : State) : Bool := w == .w3 && w.awaited s

/-- One poll of a wait site (R65): one read event, with the effect that read has.  A poll of STAT1 arms the
clearing of ADDR like any read of STAT1 (R44), but for the one that ends the address phase, after which the
pair is two fresh reads (R68 d). -/
def pollOnce (w : Site) (s : State) : State :=
  match w.poll with
  | .stat1 => { readStat1 s with s1Latch := !endsAddressPhase w s }
  | .stat2 => readStat2 s
  | .stopField => ctlRead .stop s

/-! ### The opcodes the rules test -/

/-- `x[op] = READ`. -/
def isRead (s : State) : Bool := s.op == Mnemonic.read.op

/-! ### Ending a command -/

/-- Write the result registers, report them, and be idle (R14, R16, R104 items 2 to 4). -/
def finish (status : BitVec 3) (site : BitVec 4) (s : State) : State :=
  { s with status := status, site := site, fsm := .idle, upc := .idle }.log (.done status site)

/-- `return`: event `DONE(0,0)` (R8). -/
def returnOk (s : State) : Out := .next (finish statusOk 0 s)

/-- `raise E(0)` of an error that no event of the command precedes, so that nothing is cleaned up
(R81, R104, R105): event `DONE(code(E),0)`. -/
def raiseNow (e : CmdError) (s : State) : State := finish e.code 0 (s.setK 0)

/-- `raise BusTimeout(w)` begins: go to the clean-up lines of R106 that run for this command, R106.1
for a READ of two bytes, R106.2 for any other READ, none for another command. -/
def raiseTimeout (w : Site) (s : State) : State :=
  (s.setRaising (some w)).goto (if isRead s then (if s.n = 2 then .r106_1 else .r106_2) else .r104_2)

/-- `raise BusTimeout(w)` ends: items (2) to (4) of R104, event `DONE(2, w)`. -/
def endTimeout (s : State) : Out :=
  match s.raising with
  | some w => .next (finish CmdError.busTimeout.code w.number ((s.setK 0).setRaising none))
  | none => .fault .strayLabel

/-! ### Lines of pseudocode -/

/-- The data-phase actions: a read of DATA, a write of DATA after the address byte, a stop request, a
wait on BTF or RXNE (R130, 90_conflicts.md C4).  The byte of SEND_ADDR is the address byte when it follows a
start condition and a data byte otherwise (R40); that of WRITE_BYTE and of a payload is a data byte (R18,
log 9). -/
def Line.dataPhase (ln : Line) (s : State) : Bool :=
  match ln with
  | .ctlSet f _ => f == .stop
  | .ctlClr _ _ => false
  | .irqMask _ => false
  | .irqUnmask _ => false
  | .stat1 _ => false
  | .stat2 _ => false
  | .sendAddrByte _ => !s.startDue
  | .sendData _ => true
  | .sendPayload _ => true
  | .recv _ => true
  | .push _ => false
  | .wait w _ => w.dataPhase
  | .requireCount _ => false
  | .requireCapacity _ => false
  | .beginRead _ => false
  | .beginWrite _ => false
  | .selectVariant => false
  | .testRem _ _ => false
  | .testIdx _ _ => false
  | .nextIdx _ => false
  | .ret => false
  | .endTimeout => false

/-- A failed poll, in a state in which the poll has been made (R65). -/
def pollFailed (w : Site) (s : State) : State :=
  match s.cfg.pollBound with
  | none => s
  | some b =>
    if b ≤ s.k + 1 then raiseTimeout w (s.setK (s.k + 1)) else s.setK (s.k + 1)

/-- `WaitUntil(w, poll, pred)`: one poll, then leave for the line `l` or stay (R65). -/
def waitUntil (w : Site) (l : Label) (s : State) : State :=
  if w.awaited s then ((pollOnce w s).setK 0).goto l else pollFailed w (pollOnce w s)

/-- A push onto a sink that already holds SINK_CAP bytes is a fault (R38, R120). -/
def pushByte (l : Label) (s : State) : Out :=
  if s.sink.length < s.cfg.sinkCap then .next ((sinkPush s).goto l) else .fault .sinkOverrun

/-- The payload byte `pl[x[idx]]` (R95). -/
def sendPayloadByte (l : Label) (s : State) : Out :=
  match s.pl[s.idx.toNat]? with
  | some v => .next ((dataWrite v s).goto l)
  | none => .fault .payloadMissing

/-- What a line does once it may be performed: at most one event, and the next label (R8, R13). -/
def perform (ln : Line) (s : State) : Out :=
  match ln with
  | .ctlSet f l => .next ((ctlWrite f true s).goto l)
  | .ctlClr f l => .next ((ctlWrite f false s).goto l)
  | .irqMask l => .next ((setMask true s).goto l)
  | .irqUnmask l => .next ((setMask false s).goto l)
  | .stat1 l => .next ((readStat1 s).goto l)
  | .stat2 l => .next ((readStat2 s).goto l)
  | .sendAddrByte l => .next ((dataWrite (addrByte s.cfg.addrForm s.a s.d) s).goto l)
  | .sendData l => .next ((dataWrite s.a s).goto l)
  | .sendPayload l => sendPayloadByte l s
  | .recv l => .next ((dataRead s).goto l)
  | .push l => pushByte l s
  | .wait w l => .next (waitUntil w l s)
  | .requireCount l => .next (if s.n = 0 then raiseNow .invalidRequest s else s.goto l)
  | .requireCapacity l =>
    .next (if s.cfg.sinkCap < s.n.toNat then raiseNow .overflowRequest s else s.goto l)
  | .beginRead l => .next (State.goto l { s with rem := s.n, d := .read })
  | .beginWrite l => .next (State.goto l { s with idx := 0, d := .write })
  | .selectVariant => .next (s.goto (variantEntry (readVariant s.n)))
  | .testRem more done => .next (s.goto (if 3 < s.rem.toNat then more else done))
  | .testIdx more done => .next (s.goto (if s.idx.toNat < s.n.toNat then more else done))
  | .nextIdx l => .next (State.goto l { s with idx := s.idx + 1 })
  | .ret => returnOk s
  | .endTimeout => endTimeout s

/-- Perform a line: a data-phase action is a fault while ADDR is 1 (R130, U2). -/
def runLine (ln : Line) (s : State) : Out :=
  if ln.dataPhase s && addrHeld s then .fault .addrNotCleared else perform ln s

/-! ### Accepting a command -/

/-- Latch a command into the working registers, in one step with no event (R52): the descriptor, the
payload, `x[k] <- 0` (R65), `fsm <- Run`, and the first line of the command's rule. -/
def accept (m : Mnemonic) (a : Byte) (d : Dir) (n : Count) (pl : List Byte) (first : Label) (s : State) :
    State :=
  { s with op := m.op, a := a, d := d, n := n, pl := pl, k := 0, fsm := .run, upc := first }

/-- Accept an illegal command word and end it at once with InvalidRequest (R52, R56, R105, log 19). -/
def acceptIllegal (w : CmdWord) (s : State) : State :=
  raiseNow .invalidRequest
    { s with
      op := CmdWord.op w
      a := CmdWord.a w
      d := Dir.ofBit (CmdWord.d w)
      n := CmdWord.n w
      pl := [] }

/-- Perform the line of a command that stands at the label `upc`; another command's lines are not its
own (log 23). -/
def lineAt (line : Option Line) (s : State) : Out :=
  match line with
  | some ln => runLine ln s
  | none => .fault .strayLabel

/-- Run the command of row `m`: accept it when the sequencer is idle (R14, R52); while it is the
command in flight, perform the line that `upc` names (R13). -/
def command (m : Mnemonic) (accepted : State) (line : Option Line) (s : State) : Out :=
  match s.fsm with
  | .idle => .next accepted
  | .run => if s.op = m.op then lineAt line s else .fault .strayLabel

/-! ### The ports (R61) -/

/-- `cmd_ready = (fsm = Idle)` (R53). -/
def State.cmdReady (s : State) : Bool := s.fsm == .idle

/-- `cmd_valid`: a complete command, or an illegal word, stands at the command port (R53, R57). -/
def State.cmdValid (s : State) : Bool :=
  match decode s.cmd with
  | .command _ _ => true
  | .illegal _ _ _ => true
  | .incomplete _ => false

/-- `cmd_word[31:0]`: the first four bytes at the command port, in the byte order of R58. -/
def State.cmdWord (s : State) : Option CmdWord :=
  match s.cmd with
  | b0 :: b1 :: b2 :: b3 :: _ => some (CmdWord.ofBytes b0 b1 b2 b3)
  | _ => none

/-- The payload byte stream of the command port, for WRITE: what follows the command word (R51, R61). -/
def State.cmdPayload (s : State) : List Byte := s.cmd.drop 4

/-- The level output `irq_mask = IM` (R39). -/
def State.irqMask (s : State) : Bool := s.im

/-- The five ports (R61), and the platform for the step of a handler. -/
inductive Port where
  | command
  | result
  | registerInterface
  | byteSink
  | irqMask
  | platform
  deriving DecidableEq, Repr

/-- "One event of R8 is one transfer on one of these ports" (R61).  A transfer on the command port is no
event (R52). -/
def Event.port : Event → Port
  | .cw _ _ => .registerInterface
  | .cr _ _ => .registerInterface
  | .s1 _ => .registerInterface
  | .s2 _ => .registerInterface
  | .dw _ => .registerInterface
  | .dr _ => .registerInterface
  | .im _ => .irqMask
  | .push _ => .byteSink
  | .done _ _ => .result
  | .handler _ => .platform

/-- The `done` pulse of the result port (R61). -/
def Event.isDone : Event → Bool
  | .done _ _ => true
  | _ => false

/-- `status[2:0]` and `site[3:0]` of the result port, at a `done` pulse (R61). -/
def Event.result : Event → Option (BitVec 3 × BitVec 4)
  | .done status site => some (status, site)
  | _ => none

/-- `sink_push` and `sink_data[7:0]` of the byte sink port (R61). -/
def Event.sinkData : Event → Option Byte
  | .push v => some v
  | _ => none

/-- The four registers of the Register Interface (R31). -/
inductive Reg where
  | ctrl
  | data
  | stat1
  | stat2
  deriving DecidableEq, Repr

/-- The register select of the register interface (R61): the register an event accesses. -/
def Event.register : Event → Option Reg
  | .cw _ _ => some .ctrl
  | .cr _ _ => some .ctrl
  | .s1 _ => some .stat1
  | .s2 _ => some .stat2
  | .dw _ => some .data
  | .dr _ => some .data
  | .im _ => none
  | .push _ => none
  | .done _ _ => none
  | .handler _ => none

/-- The direction, write or read, of an event on the register interface (R61). -/
def Event.isWrite : Event → Bool
  | .cw _ _ => true
  | .cr _ _ => false
  | .s1 _ => false
  | .s2 _ => false
  | .dw _ => true
  | .dr _ => false
  | .im _ => false
  | .push _ => false
  | .done _ _ => false
  | .handler _ => false

/-- The field select of an event on CTRL (R61, R32). -/
def Event.field : Event → Option CtlField
  | .cw f _ => some f
  | .cr f _ => some f
  | _ => none

/-- The value an access to the Register Interface carries, or returns: one bit of CTRL, a whole status
register, a byte zero-extended to a register (R61, R32). -/
def Event.value : Event → Option Word
  | .cw _ b => some (if b then 1 else 0)
  | .cr _ b => some (if b then 1 else 0)
  | .s1 w => some w
  | .s2 w => some w
  | .dw v => some (v.setWidth 16)
  | .dr v => some (v.setWidth 16)
  | .im _ => none
  | .push _ => none
  | .done _ _ => none
  | .handler _ => none

/-- The address of a register under REG_LAYOUT (R31, R60). -/
def Reg.address (l : RegLayout) : Reg → Nat
  | .ctrl => l.base + l.ctrl
  | .data => l.base + l.data
  | .stat1 => l.base + l.stat1
  | .stat2 => l.base + l.stat2

/-- The address of the register an event accesses (R31, R60). -/
def Event.address (l : RegLayout) (e : Event) : Option Nat := e.register.map (Reg.address l)

end Sys2Proof.Machine
end

