-- ==== Sys2Proof/Machine/Agents.lean ====
section
/-! DEFINITION. The other agents (60_exceptions.md R119): whose turn it is, and what each of their moves
does.  The controller obeys the contract of 20_memory.md R40 to R43 and is otherwise free (R45). -/

namespace Sys2Proof.Machine

/-! ### The controller -/

/-- What the controller makes of STAT1 when it means to put `w` there: an ADDR that is 1 stays 1, for it
is cleared only by the read of the two status registers; an ADDR that is 0 becomes 1 only at the end of
an outstanding address phase (R42, log 9). -/
def nextStat1 (w : Word) (s : State) : Word :=
  if addrHeld s then withAddr s.cfg.layout w
  else if s.addrSent then w
  else withoutAddr s.cfg.layout w

/-- The controller changes STAT1; an address phase whose ADDR is shown is outstanding no longer. -/
def setStat1 (w : Word) (s : State) : State :=
  { s with
    stat1 := nextStat1 w s, addrSent := s.addrSent && !addrOf s.cfg.layout (nextStat1 w s) }

/-- Whether a value of STAT1 differs from the present one in BTF or RXNE (R112). -/
def changesByteFlags (w : Word) (s : State) : Bool :=
  btfOf s.cfg.layout w != btfOf s.cfg.layout s.stat1 || rxneOf s.cfg.layout w != rxneOf s.cfg.layout s.stat1

/-- The controller may not step at its byte level (R112). -/
def windowClosed (s : State) : Bool := s.cfg.windowTimely && s.upc.insideWindow

/-! ### Interrupts -/

/-- A request arrives and is kept pending (R110). -/
def requestIrq (n : Nat) (s : State) : State :=
  if n ∈ s.pending then s else { s with pending := s.pending ++ [n] }

/-- The handler of a pending request runs: one step of the whole system (R109, log 15). -/
def runHandler (n : Nat) (s : State) : State :=
  if n ∈ s.pending then { s with pending := s.pending.erase n }.log (.handler n) else s

/-! ### Other masters of the Register Interface -/

/-- The effect of a foreign access, which is no event of the sequencer (R134, log 16). -/
def foreignEffect (x : ForeignAccess) (s : State) : State :=
  match x with
  | .ctlWrite f b => ctlWriteEffect f b s
  | .ctlRead => s.dropLatch
  | .stat1 => stat1Effect s
  | .stat2 => stat2Effect s
  | .dataRead => dataReadEffect s
  | .dataWrite v => dataWriteEffect v s

/-- A foreign access: refused while a command runs (R119, U3). -/
def foreignAccess (x : ForeignAccess) (s : State) : Out :=
  match s.fsm with
  | .idle => .next (foreignEffect x s)
  | .run => .refused .foreignAccess

/-! ### Reset -/

/-- The reset input (R125, R126): group S takes its reset values, with no event and no clean-up, and
everything else is left as it was (R127).  The working registers, "unspecified" there, take the values
of `State.reset` (log 17). -/
def resetSequencer (s : State) : State :=
  { s with
    fsm := .idle
    upc := .idle
    im := false
    status := 0
    site := 0
    op := State.reset.op
    a := State.reset.a
    d := State.reset.d
    n := State.reset.n
    rem := State.reset.rem
    idx := State.reset.idx
    rxb := State.reset.rxb
    k := State.reset.k
    pl := State.reset.pl
    raising := none }

/-! ### Moves -/

/-- A move that cannot be made now: a handler while IM is 1 (R109), a byte-level step of the controller
inside a masked window under WINDOW_TIMELY: a byte received, a byte sent, a change of BTF or RXNE (R6, R112,
log 14). -/
def heldOff (m : Move) (s : State) : Bool :=
  match m with
  | .irqHandler _ => s.im
  | .receive _ => windowClosed s
  | .transmit => windowClosed s
  | .stat1 w => windowClosed s && changesByteFlags w s
  | _ => false

/-- One move of an agent other than the sequencer. -/
def agentMove (m : Move) (s : State) : Out :=
  match m with
  | .sequencer => .next s
  | .stat1 w => .next (setStat1 w s)
  | .stat2 w => .next { s with stat2 := w }
  | .receive v => .next { s with rx := s.rx ++ [v] }
  | .transmit => .next { s with tx := s.tx.drop 1 }
  | .clearStart => .next { s with start := false }
  | .clearStop => .next { s with stop := false }
  | .irqRequest n => .next (requestIrq n s)
  | .irqHandler n => .next (runHandler n s)
  | .sinkPop => .next { s with sink := s.sink.drop 1 }
  | .offer bs => .next { s with cmd := s.cmd ++ bs }
  | .foreign x => foreignAccess x s
  | .reset => .next (resetSequencer s)

/-- Whose turn it is. -/
inductive Turn where
  | sequencer (s : State)
  | agent (m : Move) (s : State)
  deriving DecidableEq, Repr

/-- The head of the agenda moves; a move that is held off waits there while the sequencer goes on; with
an empty agenda the sequencer moves (log 2). -/
def turn (s : State) : Turn :=
  match s.agenda with
  | [] => .sequencer s
  | .sequencer :: rest => .sequencer { s with agenda := rest }
  | m :: rest => if heldOff m s then .sequencer s else .agent m { s with agenda := rest }

end Sys2Proof.Machine
end

