-- ==== Sys2Proof/Machine/Primitives.lean ====
section
/-! DEFINITION. The five primitive commands (40_primitives.md R67 to R71), line by line. -/

namespace Sys2Proof.Machine

/-- The lines of GEN_START (R67). -/
def genStartLine : Label → Option Line
  | .r67_1 => some (.ctlSet .start .r67_2)
  | .r67_2 => some (.wait .w1 .r67_3)
  | .r67_3 => some .ret
  | .r104_2 => some .endTimeout
  | _ => none

/-- `GEN_START` (R67). -/
def execGenStart (s : State) : Out :=
  command .genStart (accept .genStart 0 .write 0 [] .r67_1 s) (genStartLine s.upc) s

/-- The lines of SEND_ADDR (R68). -/
def sendAddrLine : Label → Option Line
  | .r68_1 => some (.wait .w2 .r68_2)
  | .r68_2 => some (.sendAddrByte .r68_3)
  | .r68_3 => some (.wait .w3 .r68_4)
  | .r68_4 => some .ret
  | .r104_2 => some .endTimeout
  | _ => none

/-- `SEND_ADDR a, d` (R68). -/
def execSendAddr (a : Byte) (d : Dir) (s : State) : Out :=
  command .sendAddr (accept .sendAddr a d 0 [] .r68_1 s) (sendAddrLine s.upc) s

/-- The lines of CLR_ADDR (R69): no wait, so no timeout. -/
def clrAddrLine : Label → Option Line
  | .r69_1 => some (.stat1 .r69_2)
  | .r69_2 => some (.stat2 .r69_3)
  | .r69_3 => some .ret
  | _ => none

/-- `CLR_ADDR` (R69). -/
def execClrAddr (s : State) : Out :=
  command .clrAddr (accept .clrAddr 0 .write 0 [] .r69_1 s) (clrAddrLine s.upc) s

/-- The lines of WRITE_BYTE (R70). -/
def writeByteLine : Label → Option Line
  | .r70_1 => some (.sendData .r70_2)
  | .r70_2 => some (.wait .w4 .r70_3)
  | .r70_3 => some .ret
  | .r104_2 => some .endTimeout
  | _ => none

/-- `WRITE_BYTE v` (R70). -/
def execWriteByte (v : Byte) (s : State) : Out :=
  command .writeByte (accept .writeByte v .write 0 [] .r70_1 s) (writeByteLine s.upc) s

/-- The lines of GEN_STOP (R71). -/
def genStopLine : Label → Option Line
  | .r71_1 => some (.ctlSet .stop .r71_2)
  | .r71_2 => some (.wait .w5 .r71_3)
  | .r71_3 => some .ret
  | .r104_2 => some .endTimeout
  | _ => none

/-- `GEN_STOP` (R71). -/
def execGenStop (s : State) : Out :=
  command .genStop (accept .genStop 0 .write 0 [] .r71_1 s) (genStopLine s.upc) s

end Sys2Proof.Machine
end

