-- ==== Sys2Proof/Machine/Read.lean ====
section
/-! DEFINITION. The read transaction (41_read_transaction.md R80 to R86), line by line, with the clean-up
lines that a timeout of it runs (60_exceptions.md R106). -/

namespace Sys2Proof.Machine

/-- The lines of READ (R81, R83, R84, R85, R86, R106). -/
def readLine : Label → Option Line
  -- R81, and R83 with R67 and R68 inlined: checks, entry, variant selection
  | .r81_1 => some (.requireCount .r81_2)
  | .r81_2 => some (.requireCapacity .r83_1)
  | .r83_1 => some (.beginRead .r67_1)
  | .r67_1 => some (.ctlSet .start .r67_2)
  | .r67_2 => some (.wait .w1 .r68_1)
  | .r68_1 => some (.wait .w2 .r68_2)
  | .r68_2 => some (.sendAddrByte .r68_3)
  | .r68_3 => some (.wait .w3 .r83_2)
  | .r83_2 => some .selectVariant
  -- R84, N = 1
  | .r84_1 => some (.ctlClr .ack .r84_2)
  | .r84_2 => some (.irqMask .r84_3)
  | .r84_3 => some (.stat1 .r84_4)
  | .r84_4 => some (.stat2 .r84_5)
  | .r84_5 => some (.ctlSet .stop .r84_6)
  | .r84_6 => some (.irqUnmask .r84_7)
  | .r84_7 => some (.wait .w6 .r84_8)
  | .r84_8 => some (.recv .r84_9)
  | .r84_9 => some (.push .r84_10)
  | .r84_10 => some (.wait .w7 .r84_11)
  | .r84_11 => some (.ctlSet .ack .r84_12)
  | .r84_12 => some .ret
  -- R85, N = 2
  | .r85_1 => some (.ctlSet .pos .r85_2)
  | .r85_2 => some (.irqMask .r85_3)
  | .r85_3 => some (.stat1 .r85_4)
  | .r85_4 => some (.stat2 .r85_5)
  | .r85_5 => some (.ctlClr .ack .r85_6)
  | .r85_6 => some (.irqUnmask .r85_7)
  | .r85_7 => some (.wait .w8 .r85_8)
  | .r85_8 => some (.irqMask .r85_9)
  | .r85_9 => some (.ctlSet .stop .r85_10)
  | .r85_10 => some (.recv .r85_11)
  | .r85_11 => some (.push .r85_12)
  | .r85_12 => some (.irqUnmask .r85_13)
  | .r85_13 => some (.recv .r85_14)
  | .r85_14 => some (.push .r85_15)
  | .r85_15 => some (.wait .w9 .r85_16)
  | .r85_16 => some (.ctlClr .pos .r85_17)
  | .r85_17 => some (.ctlSet .ack .r85_18)
  | .r85_18 => some .ret
  -- R86, N ≥ 3
  | .r86_1 => some (.stat1 .r86_2)
  | .r86_2 => some (.stat2 .r86_3)
  | .r86_3 => some (.testRem .r86_4 .r86_7)
  | .r86_4 => some (.wait .w10 .r86_5)
  | .r86_5 => some (.recv .r86_6)
  | .r86_6 => some (.push .r86_3)
  | .r86_7 => some (.wait .w11 .r86_8)
  | .r86_8 => some (.ctlClr .ack .r86_9)
  | .r86_9 => some (.irqMask .r86_10)
  | .r86_10 => some (.recv .r86_11)
  | .r86_11 => some (.push .r86_12)
  | .r86_12 => some (.ctlSet .stop .r86_13)
  | .r86_13 => some (.recv .r86_14)
  | .r86_14 => some (.push .r86_15)
  | .r86_15 => some (.irqUnmask .r86_16)
  | .r86_16 => some (.wait .w12 .r86_17)
  | .r86_17 => some (.recv .r86_18)
  | .r86_18 => some (.push .r86_19)
  | .r86_19 => some (.wait .w13 .r86_20)
  | .r86_20 => some (.ctlSet .ack .r86_21)
  | .r86_21 => some .ret
  -- R106 and R104: a timeout
  | .r106_1 => some (.ctlClr .pos .r106_2)
  | .r106_2 => some (.ctlSet .ack .r104_2)
  | .r104_2 => some .endTimeout
  | _ => none

/-- `READ a, N` (R80); acceptance overrides `x[d] <- 1` (R52). -/
def execRead (a : Byte) (n : Count) (s : State) : Out :=
  command .read (accept .read a .read n [] .r81_1 s) (readLine s.upc) s

end Sys2Proof.Machine
end

