-- ==== Sys2Proof/Machine/Write.lean ====
section
/-! DEFINITION. The write transaction (42_write_transaction.md R95, R96), line by line. -/

namespace Sys2Proof.Machine

/-- The lines of WRITE (R95) with R67, R68 and R69 inlined. -/
def writeLine : Label → Option Line
  | .r95_1 => some (.requireCount .r95_2)
  | .r95_2 => some (.beginWrite .r67_1)
  | .r67_1 => some (.ctlSet .start .r67_2)
  | .r67_2 => some (.wait .w1 .r68_1)
  | .r68_1 => some (.wait .w2 .r68_2)
  | .r68_2 => some (.sendAddrByte .r68_3)
  | .r68_3 => some (.wait .w3 .r69_1)
  | .r69_1 => some (.stat1 .r69_2)
  | .r69_2 => some (.stat2 .r95_3)
  | .r95_3 => some (.testIdx .r95_4 .r95_7)
  | .r95_4 => some (.sendPayload .r95_5)
  | .r95_5 => some (.wait .w4 .r95_6)
  | .r95_6 => some (.nextIdx .r95_3)
  | .r95_7 => some (.ctlSet .stop .r95_8)
  | .r95_8 => some (.wait .w5 .r95_9)
  | .r95_9 => some .ret
  | .r104_2 => some .endTimeout
  | _ => none

/-- `WRITE a, payload` (R95); acceptance overrides `x[d] <- 0` (R52). -/
def execWrite (a : Byte) (n : Count) (payload : List Byte) (s : State) : Out :=
  command .write (accept .write a .write n payload .r95_1 s) (writeLine s.upc) s

end Sys2Proof.Machine
end

