-- ==== Sys2Proof/Machine/Dispatch.lean ====
section
/-! DEFINITION. One arm per command: a command's meaning is its acceptance when the sequencer is idle, and
otherwise the line that `upc` names. -/

namespace Sys2Proof.Machine

def exec (i : Instr) (s : State) : Host.Outcome State Fault Refusal :=
  match i with
  | .genStart => Sys2Proof.Machine.execGenStart s
  | .sendAddr a d => Sys2Proof.Machine.execSendAddr a d s
  | .clrAddr => Sys2Proof.Machine.execClrAddr s
  | .writeByte v => Sys2Proof.Machine.execWriteByte v s
  | .genStop => Sys2Proof.Machine.execGenStop s
  | .read a n => Sys2Proof.Machine.execRead a n s
  | .write a n payload => Sys2Proof.Machine.execWrite a n payload s

end Sys2Proof.Machine
end

