-- ==== Sys2Proof/Machine/Fetch.lean ====
section
/-! DEFINITION. Where the next command comes from: the head of the command port while the sequencer is
idle (30_encoding.md R52, R57), the working registers while a command is in flight (10_state.md R12). -/

namespace Sys2Proof.Machine

/-- What the command port offers. -/
inductive Fetched where
  /-- a complete command, the port's bytes moved past it -/
  | command (i : Instr) (s : State)
  /-- an illegal word, already accepted and ended (R56) -/
  | rejected (s : State)
  /-- no complete command: the sequencer stays idle (R57) -/
  | waiting
  deriving DecidableEq, Repr

/-- Take a complete command, or an illegal word, from the head of the command port (R52, R56, R57). -/
def fetch (s : State) : Fetched :=
  match decode s.cmd with
  | .command i rest => .command i { s with cmd := rest }
  | .illegal w _ rest => .rejected (acceptIllegal w { s with cmd := rest })
  | .incomplete _ => .waiting

/-- The command in flight, from the registers that hold its descriptor (R11, R12); none when `x[op]` is
no opcode, in states no run reaches. -/
def inFlight (s : State) : Option Instr :=
  if s.op = Mnemonic.genStart.op then some .genStart
  else if s.op = Mnemonic.sendAddr.op then some (.sendAddr s.a s.d)
  else if s.op = Mnemonic.clrAddr.op then some .clrAddr
  else if s.op = Mnemonic.writeByte.op then some (.writeByte s.a)
  else if s.op = Mnemonic.genStop.op then some .genStop
  else if s.op = Mnemonic.read.op then some (.read s.a s.n)
  else if s.op = Mnemonic.write.op then some (.write s.a s.n s.pl)
  else none

/-- The bytes placed at the command port so that the next step runs the command whose first `nbits`
bits are `w` (log 18): the sequencer idle, and the sequencer to move. -/
def placeCommand (nbits w : Nat) (s : State) : State :=
  { s with fsm := .idle, upc := .idle, agenda := [], cmd := tableBytes nbits w }

end Sys2Proof.Machine
end

