-- ==== Sys2Proof/Machine/Step.lean ====
section
/-! DEFINITION. One step of the whole machine: a move of another agent, or a step of the sequencer
(60_exceptions.md R119, 10_state.md R13, R14). -/

namespace Sys2Proof.Machine

/-- One step of the sequencer: accept a command while idle (R52), wait while none is complete (R57),
perform a line of the command in flight while running (R13). -/
def sequencerStep (s : State) : Host.Outcome State Fault Refusal :=
  match s.fsm with
  | .idle =>
    match fetch s with
    | .command i s' => exec i s'
    | .rejected s' => .next s'
    | .waiting => .next s
  | .run =>
    match inFlight s with
    | some i => exec i s
    | none => .fault .strayLabel

/-- One step of the machine. -/
def step (s : State) : Host.Outcome State Fault Refusal :=
  match turn s with
  | .sequencer s' => sequencerStep s'
  | .agent m s' => agentMove m s'

/-- The command with the bits `w` stands at the command port of an idle sequencer that is to move. -/
def State.withFetchWord (s : State) (nbits w : Nat) : State := placeCommand nbits w s

end Sys2Proof.Machine
end

