-- ==== Sys2Proof/Safety.lean ====
section
/-! DEFINITION. What counts as a safe run: the launch premises (70_reset_and_hazards.md R128), the lines of
each command, and the invariants that claims are stated with. -/

namespace Sys2Proof.Machine

/-! ### Launch premises -/

/-- What must hold when a command is accepted; the sequencer checks none of it (R128, U9, U10).
DESIGN CHOICE (log 13): R128 also asks for an idle bus, for which the spec names no flag (R20 and
91_not_in_source.md N10 leave BUSY open, R41 ties an idle bus to a read of STOP), so no clause here says
it. -/
def State.launchOk (s : State) : Bool :=
  s.pe && s.ack && !s.pos && !s.start && !s.stop && !addrOf s.cfg.layout s.stat1 && !s.im

/-- Free places in the sink for `n` bytes (R128, R136). -/
def State.sinkRoom (n : Nat) (s : State) : Bool := decide (s.sink.length + n ≤ s.cfg.sinkCap)

/-- A controller that answers every poll of a status register at the first try, as environment E0 of
95_test_vectors.md does. -/
def State.answersAtOnce (s : State) : Bool :=
  sbOf s.cfg.layout s.stat1 && addrOf s.cfg.layout s.stat1 && btfOf s.cfg.layout s.stat1
    && rxneOf s.cfg.layout s.stat1 && masterEntered s.cfg s.stat2

/-- A legal launch (R128) under a controller that answers every poll at the first try: STAT1 and STAT2 show the
start, ADDR is 0 until STAT1 becomes `w`, and `w` shows ADDR and every flag awaited after it (R19, R66; log 13). -/
def State.answersFromLaunch (w : Word) (s : State) : Bool :=
  s.launchOk && sbOf s.cfg.layout s.stat1 && masterEntered s.cfg s.stat2
    && addrOf s.cfg.layout w && btfOf s.cfg.layout w && rxneOf s.cfg.layout w

/-! ### Lines and commands -/

/-- The lines of R106 and R104 that end a command with a timeout. -/
def Label.cleanUp : Label → Bool
  | .r106_1 | .r106_2 | .r104_2 => true
  | _ => false

/-- The lines of variant N = 1 (R84). -/
def Label.single : Label → Bool
  | .r84_1 | .r84_2 | .r84_3 | .r84_4 | .r84_5 | .r84_6 => true
  | .r84_7 | .r84_8 | .r84_9 | .r84_10 | .r84_11 | .r84_12 => true
  | _ => false

/-- The lines of variant N = 2 (R85). -/
def Label.double : Label → Bool
  | .r85_1 | .r85_2 | .r85_3 | .r85_4 | .r85_5 | .r85_6 => true
  | .r85_7 | .r85_8 | .r85_9 | .r85_10 | .r85_11 | .r85_12 => true
  | .r85_13 | .r85_14 | .r85_15 | .r85_16 | .r85_17 | .r85_18 => true
  | _ => false

/-- The lines of variant N ≥ 3 (R86). -/
def Label.bulk : Label → Bool
  | .r86_1 | .r86_2 | .r86_3 | .r86_4 | .r86_5 | .r86_6 | .r86_7 => true
  | .r86_8 | .r86_9 | .r86_10 | .r86_11 | .r86_12 | .r86_13 | .r86_14 => true
  | .r86_15 | .r86_16 | .r86_17 | .r86_18 | .r86_19 | .r86_20 | .r86_21 => true
  | _ => false

/-- The line of a command at a label (R67 to R71, R81 to R86, R95, R104, R106). -/
def lineOf : Mnemonic → Label → Option Line
  | .genStart => genStartLine
  | .sendAddr => sendAddrLine
  | .clrAddr => clrAddrLine
  | .writeByte => writeByteLine
  | .genStop => genStopLine
  | .read => readLine
  | .write => writeLine

/-- The first line of a command's rule (R52). -/
def firstLine : Mnemonic → Label
  | .genStart => .r67_1
  | .sendAddr => .r68_1
  | .clrAddr => .r69_1
  | .writeByte => .r70_1
  | .genStop => .r71_1
  | .read => .r81_1
  | .write => .r95_1

/-- A command of row `m` is in flight and `upc` names the line `l` (R13, R14). -/
abbrev State.standsAt (m : Mnemonic) (l : Label) (s : State) : Prop := s.fsm = .run ∧ s.op = m.op ∧ s.upc = l

/-- What acceptance latches into `x[a]` (R52). -/
def operandA : Instr → Byte
  | .genStart => 0
  | .sendAddr a _ => a
  | .clrAddr => 0
  | .writeByte v => v
  | .genStop => 0
  | .read a _ => a
  | .write a _ _ => a

/-- What acceptance latches into `x[d]` (R52). -/
def operandD : Instr → Dir
  | .genStart => .write
  | .sendAddr _ d => d
  | .clrAddr => .write
  | .writeByte _ => .write
  | .genStop => .write
  | .read _ _ => .read
  | .write _ _ _ => .write

/-- What acceptance latches into `x[n]` (R52). -/
def operandN : Instr → Count
  | .genStart => 0
  | .sendAddr _ _ => 0
  | .clrAddr => 0
  | .writeByte _ => 0
  | .genStop => 0
  | .read _ n => n
  | .write _ n _ => n

/-- The wait site of a line, for the lines that are waits (R66). -/
def Label.site : Label → Option Site
  | .r67_2 => some .w1
  | .r68_1 => some .w2
  | .r68_3 => some .w3
  | .r70_2 | .r95_5 => some .w4
  | .r71_2 | .r95_8 => some .w5
  | .r84_7 => some .w6
  | .r84_10 => some .w7
  | .r85_7 => some .w8
  | .r85_15 => some .w9
  | .r86_4 => some .w10
  | .r86_7 => some .w11
  | .r86_16 => some .w12
  | .r86_19 => some .w13
  | _ => none

/-- The lines between an `IM(1)` and the `IM(0)` that follows it (R111). -/
def Label.masked : Label → Bool
  | .r84_3 | .r84_4 | .r84_5 | .r84_6 => true
  | .r85_3 | .r85_4 | .r85_5 | .r85_6 => true
  | .r85_9 | .r85_10 | .r85_11 | .r85_12 => true
  | .r86_10 | .r86_11 | .r86_12 | .r86_13 | .r86_14 | .r86_15 => true
  | _ => false

/-- The lines between a read of DATA and the push that follows it (R82). -/
def Label.holdsByte : Label → Bool
  | .r84_9 | .r85_11 | .r85_14 | .r86_6 | .r86_11 | .r86_14 | .r86_18 => true
  | _ => false

/-- The lines of READ between `CtlClr(ACK)` and `CtlSet(ACK)` (R84, R85, R86). -/
def Label.ackCleared : Label → Bool
  | .r84_2 | .r84_3 | .r84_4 | .r84_5 | .r84_6 | .r84_7 | .r84_8 | .r84_9 | .r84_10 | .r84_11 => true
  | .r85_6 | .r85_7 | .r85_8 | .r85_9 | .r85_10 | .r85_11 | .r85_12 => true
  | .r85_13 | .r85_14 | .r85_15 | .r85_16 | .r85_17 => true
  | .r86_9 | .r86_10 | .r86_11 | .r86_12 | .r86_13 | .r86_14 => true
  | .r86_15 | .r86_16 | .r86_17 | .r86_18 | .r86_19 | .r86_20 => true
  | _ => false

/-- The lines of READ between `CtlSet(POS)` and `CtlClr(POS)` (R85). -/
def Label.posSet : Label → Bool
  | .r85_2 | .r85_3 | .r85_4 | .r85_5 | .r85_6 | .r85_7 | .r85_8 | .r85_9 => true
  | .r85_10 | .r85_11 | .r85_12 | .r85_13 | .r85_14 | .r85_15 | .r85_16 => true
  | _ => false

/-- The lines of READ and WRITE between the request for a start and the write of the address byte. -/
def Label.beforeAddrByte : Label → Bool
  | .r67_2 | .r68_1 | .r68_2 => true
  | _ => false

/-- The lines of READ and WRITE after the address phase is complete and before the pair of reads clears
ADDR. -/
def Label.beforeClearing : Label → Bool
  | .r83_2 | .r84_1 | .r84_2 | .r84_3 | .r84_4 => true
  | .r85_1 | .r85_2 | .r85_3 | .r85_4 => true
  | .r86_1 | .r86_2 => true
  | .r69_1 | .r69_2 => true
  | _ => false

/-- The second read of the clearing pair in READ and WRITE. -/
def Label.clearing : Label → Bool
  | .r84_4 | .r85_4 | .r86_2 | .r69_2 => true
  | _ => false

/-- The lines of WRITE that send the payload and stop (R95). -/
def Label.payload : Label → Bool
  | .r95_3 | .r95_4 | .r95_5 | .r95_6 | .r95_7 | .r95_8 | .r95_9 => true
  | _ => false

/-- The lines of READ and WRITE after the pair of reads has cleared ADDR. -/
def Label.afterClearing (l : Label) : Bool :=
  (l.single || l.double || l.bulk || l.payload) && !l.beforeClearing

/-- The lines of READ and WRITE after the write of the address byte. -/
def Label.afterAddrByte (l : Label) : Bool := l == .r68_3 || l.beforeClearing || l.afterClearing

/-! ### Invariants -/

/-- `fsm`, `upc`, `x[op]` and the pending timeout agree (R13, R14, R76). -/
def State.controlInv (s : State) : Prop :=
  (s.fsm = .idle ↔ s.upc = .idle)
    ∧ (s.fsm = .run → ∃ m : Mnemonic, s.op = m.op ∧ (lineOf m s.upc).isSome = true)
    ∧ (s.raising.isSome = s.upc.cleanUp)

/-- IM is 1 exactly inside a masked window (R111, R113). -/
def State.maskInv (s : State) : Prop := s.im = s.upc.masked

/-- What a READ at line `l` knows of its counts: `x[rem]` is N less the pushes so far, and the variant
is the one that N selects (R82 to R87). -/
def readCounts (l : Label) (cap n rem : Nat) : Prop :=
  match l with
  | .r81_1 => True
  | .r81_2 => 1 ≤ n
  | .r83_1 => 1 ≤ n ∧ n ≤ cap
  | .r67_1 | .r67_2 | .r68_1 | .r68_2 | .r68_3 | .r83_2 => 1 ≤ n ∧ n ≤ cap ∧ rem = n
  | .r84_10 | .r84_11 | .r84_12 => n = 1 ∧ n ≤ cap ∧ rem = 0
  | .r85_12 | .r85_13 | .r85_14 => n = 2 ∧ n ≤ cap ∧ rem = 1
  | .r85_15 | .r85_16 | .r85_17 | .r85_18 => n = 2 ∧ n ≤ cap ∧ rem = 0
  | .r86_1 | .r86_2 => 3 ≤ n ∧ n ≤ cap ∧ rem = n
  | .r86_3 => 3 ≤ rem ∧ rem ≤ n ∧ n ≤ cap
  | .r86_4 | .r86_5 | .r86_6 => 4 ≤ rem ∧ rem ≤ n ∧ n ≤ cap
  | .r86_7 | .r86_8 | .r86_9 | .r86_10 | .r86_11 => 3 ≤ n ∧ n ≤ cap ∧ rem = 3
  | .r86_12 | .r86_13 | .r86_14 => 3 ≤ n ∧ n ≤ cap ∧ rem = 2
  | .r86_15 | .r86_16 | .r86_17 | .r86_18 => 3 ≤ n ∧ n ≤ cap ∧ rem = 1
  | .r86_19 | .r86_20 | .r86_21 => 3 ≤ n ∧ n ≤ cap ∧ rem = 0
  | .r106_1 => n = 2 ∧ n ≤ cap ∧ rem ≤ n
  | .r106_2 | .r104_2 => 1 ≤ n ∧ n ≤ cap ∧ rem ≤ n
  | l => (l.single = true → n = 1 ∧ n ≤ cap ∧ rem = 1) ∧ (l.double = true → n = 2 ∧ n ≤ cap ∧ rem = 2)

/-- What a WRITE at line `l` knows of its counts: `x[idx]` payload bytes are sent (R95). -/
def writeCounts (l : Label) (n idx : Nat) : Prop :=
  match l with
  | .r95_1 => True
  | .r95_2 => 1 ≤ n
  | .r95_3 => 1 ≤ n ∧ idx ≤ n
  | .r95_4 | .r95_5 | .r95_6 => idx < n
  | .r95_7 | .r95_8 | .r95_9 => 1 ≤ n ∧ idx = n
  | .r104_2 => 1 ≤ n ∧ idx ≤ n
  | _ => 1 ≤ n ∧ idx = 0

/-- The descriptor and the counts of a transaction in flight (R12, R82, R83, R95). -/
def State.countInv (s : State) : Prop :=
  (s.fsm = .run → s.op = Mnemonic.read.op →
      s.d = .read ∧ readCounts s.upc s.cfg.sinkCap s.n.toNat s.rem.toNat)
    ∧ (s.fsm = .run → s.op = Mnemonic.write.op →
      s.d = .write ∧ s.pl.length = s.n.toNat ∧ writeCounts s.upc s.n.toNat s.idx.toNat)

/-- `x[k]` counts the failed polls of the current wait, below the bound; it is 0 outside a wait, and
equals the bound while a timeout is being ended (R65, R75, R117). -/
def State.pollInv (s : State) : Prop :=
  match s.cfg.pollBound with
  | none => s.k = 0 ∧ s.raising = none
  | some b => 1 ≤ b ∧ if s.upc.cleanUp then s.k = b else if s.upc.site.isSome then s.k < b else s.k = 0

/-- ADDR is 1 from the end of the address phase of a transaction to its clearing, and after the clearing
it is 0 with nothing outstanding that could raise it (R40, R42, R130); a poll of GEN_START completes no
clearing (R67 b).  What may raise ADDR is log 9's reading, and what drops the latch log 10's. -/
def State.addrInv (s : State) : Prop :=
  (s.fsm = .run → s.upc = .r67_2 → s.s1Latch = false)
    ∧ (s.fsm = .run → (s.op = Mnemonic.read.op ∨ s.op = Mnemonic.write.op) →
        s.upc.beforeAddrByte = true → s.startDue = true)
    ∧ (s.fsm = .run → (s.op = Mnemonic.read.op ∨ s.op = Mnemonic.write.op) →
        s.upc.afterAddrByte = true → s.startDue = false)
    ∧ (s.fsm = .run → (s.op = Mnemonic.read.op ∨ s.op = Mnemonic.write.op) →
        s.upc.beforeClearing = true → addrHeld s = true ∧ (s.upc.clearing = true → s.s1Latch = true))
    ∧ (s.fsm = .run → (s.op = Mnemonic.read.op ∨ s.op = Mnemonic.write.op) →
        s.upc.afterClearing = true → addrHeld s = false ∧ s.addrSent = false)

/-- The result registers hold a result (R62): a success or an error other than ProtocolViolation, and a
wait site exactly for a timeout. -/
def State.resultInv (s : State) : Prop :=
  (s.status = 0 ∧ s.site = 0) ∨ (s.status = 1 ∧ s.site = 0)
    ∨ (s.status = 2 ∧ ∃ w : Site, s.site = w.number) ∨ (s.status = 3 ∧ s.site = 0)

/-- The sink holds at most its capacity (R22, R120). -/
def State.sinkInv (s : State) : Prop := s.sink.length ≤ s.cfg.sinkCap

/-- ACK and POS follow the line of the command in flight, and are 1 and 0 outside the variants (R21,
R84 to R86, R90, R106, R114). -/
def State.ackInv (s : State) : Prop :=
  (s.upc.ackCleared = true → s.ack = false)
    ∧ (s.upc.ackCleared = false → s.upc ≠ .r106_1 → s.upc ≠ .r106_2 → s.ack = true)
    ∧ (s.upc.posSet = true → s.pos = true)
    ∧ (s.upc.posSet = false → s.upc ≠ .r106_1 → s.pos = false)

/-- The events of the present command: those after the last DONE. -/
def commandEvents (tr : List Event) : List Event :=
  tr.foldl (fun acc e => if e.isDone then [] else acc ++ [e]) []

/-- The bytes pushed, in order. -/
def pushesOf (tr : List Event) : List Byte :=
  tr.filterMap fun e => match e with
    | .push v => some v
    | _ => none

/-- The bytes read from DATA, in order. -/
def readsOf (tr : List Event) : List Byte :=
  tr.filterMap fun e => match e with
    | .dr v => some v
    | _ => none

/-- A READ pushes exactly the bytes it reads, in order, and N of them with those still to come (R82,
R90); no other command reads or pushes (R74, R95). -/
def State.traceInv (s : State) : Prop :=
  if s.fsm = .run ∧ s.op = Mnemonic.read.op then
    (readsOf (commandEvents s.trace)
        = pushesOf (commandEvents s.trace) ++ (if s.upc.holdsByte then [s.rxb] else []))
      ∧ (if s.upc = .r81_1 ∨ s.upc = .r81_2 ∨ s.upc = .r83_1 then pushesOf (commandEvents s.trace) = []
         else (pushesOf (commandEvents s.trace)).length + s.rem.toNat = s.n.toNat)
  else readsOf (commandEvents s.trace) = [] ∧ pushesOf (commandEvents s.trace) = []

/-- The invariant that every step keeps, whatever the other agents do. -/
structure State.Inv (s : State) : Prop where
  control : s.controlInv
  mask : s.maskInv
  counts : s.countInv
  polls : s.pollInv
  addr : s.addrInv
  result : s.resultInv
  sink : s.sinkInv

/-- A READ in flight has room in the sink for what it has still to push (R128, R136). -/
def State.roomInv (s : State) : Prop :=
  s.fsm = .run → s.op = Mnemonic.read.op →
    if s.upc = .r81_1 ∨ s.upc = .r81_2 ∨ s.upc = .r83_1 then s.sink.length + s.n.toNat ≤ s.cfg.sinkCap
    else s.sink.length + s.rem.toNat ≤ s.cfg.sinkCap

/-- The event of one poll of a wait site (R65). -/
def Site.pollEvent (w : Site) (s : State) : Event :=
  match w.poll with
  | .stat1 => .s1 s.stat1
  | .stat2 => .s2 s.stat2
  | .stopField => .cr .stop s.stop

/-- The first line of what a timeout runs: R106.1 for a READ of two bytes, R106.2 for any other READ,
the end of the command for every other command (R104, R106). -/
def timeoutLabel (m : Mnemonic) (n : Count) : Label :=
  match m with
  | .read => if n = 2 then .r106_1 else .r106_2
  | .genStart => .r104_2
  | .sendAddr => .r104_2
  | .clrAddr => .r104_2
  | .writeByte => .r104_2
  | .genStop => .r104_2
  | .write => .r104_2

/-- STAT1 after the pair of reads that clears ADDR (R42). -/
def State.stat1Cleared (s : State) : Word := withoutAddr s.cfg.layout s.stat1

/-- Equal but for the poll counter and POLL_BOUND (R103). -/
def sameButBound (s t : State) : Prop :=
  { s with k := 0, cfg := { s.cfg with pollBound := none } }
    = { t with k := 0, cfg := { t.cfg with pollBound := none } }

end Sys2Proof.Machine
end

