-- ==== Sys2Proof/Certificates/Slice0/Obligations.lean ====
section
/-! DEFINITION. The statements for the provers.  Each docstring names the rule of spec/ a statement
formalises; where a clause rests on a choice of the model it names the log entry. -/

section

open Sys2Proof Sys2Proof.Machine

/-! ### Encoding -/

/-- Decoding what the encoder writes gives the command back, whatever follows it (R51, R54, R57, R58). -/
def Obligations.DecodeEncodeRoundTrip : Prop :=
  ∀ (i : Instr) (rest : List Byte), i.wf = true → decode (encode i ++ rest) = .command i rest

/-- A command is read only from the bytes that the encoder writes for it: no other bytes decode to it,
and what is read is well formed (R51, R54, R56, R57). -/
def Obligations.EncodeDecodeRoundTrip : Prop :=
  ∀ (bs rest : List Byte) (i : Instr), decode bs = .command i rest → i.wf = true ∧ encode i ++ rest = bs

/-- The opcode map of R54: each row's match and mask decide the command, so the rows are disjoint. -/
def Obligations.OpcodeMapRows : Prop :=
  ∀ w : CmdWord,
    (decodeWord w = .ok .genStart ↔ w &&& 0xFFFFFFFF#32 = 0x10000000#32)
    ∧ (decodeWord w = .ok .sendAddr ↔ w &&& 0xFE00FFFF#32 = 0x20000000#32)
    ∧ (decodeWord w = .ok .clrAddr ↔ w &&& 0xFFFFFFFF#32 = 0x30000000#32)
    ∧ (decodeWord w = .ok .writeByte ↔ w &&& 0xFF00FFFF#32 = 0x40000000#32)
    ∧ (decodeWord w = .ok .genStop ↔ w &&& 0xFFFFFFFF#32 = 0x50000000#32)
    ∧ (decodeWord w = .ok .read ↔ w &&& 0xFF000000#32 = 0x80000000#32)
    ∧ (decodeWord w = .ok .write ↔ w &&& 0xFF000000#32 = 0x90000000#32)

/-- The example words of R54 and R58 and every word of V1 of 95_test_vectors.md, written out in the byte order
of R58, decode to what they stand for. -/
def Obligations.SpecWordsDecode : Prop :=
  decode [0x00, 0x00, 0x00, 0x10] = .command .genStart []
  ∧ decode [0x00, 0x00, 0x78, 0x20] = .command (.sendAddr 0x78 .write) []
  ∧ decode [0x00, 0x00, 0x78, 0x21] = .command (.sendAddr 0x78 .read) []
  ∧ decode [0x00, 0x00, 0x00, 0x30] = .command .clrAddr []
  ∧ decode [0x00, 0x00, 0x20, 0x40] = .command (.writeByte 0x20) []
  ∧ decode [0x00, 0x00, 0x00, 0x50] = .command .genStop []
  ∧ decode [0x02, 0x00, 0x78, 0x80] = .command (.read 0x78 2) []
  ∧ decode [0x01, 0x00, 0x78, 0x90, 0x01] = .command (.write 0x78 1 [0x01]) []
  ∧ decode [0x2C, 0x01, 0x78, 0x80] = .command (.read 0x78 300) []
  ∧ decode [0xFF, 0xFF, 0xFF, 0x80] = .command (.read 0xFF 65535) []
  ∧ decode [0x02, 0x00, 0x78, 0x90, 0x0A, 0x0B] = .command (.write 0x78 2 [0x0A, 0x0B]) []
  ∧ decode [0x01, 0x00, 0x78, 0x80] = .command (.read 0x78 1) []
  ∧ decode [0x00, 0x00, 0x78, 0x80] = .command (.read 0x78 0) []
  ∧ decode [0x00, 0x00, 0x78, 0x90] = .command (.write 0x78 0 []) []
  ∧ decode [0x00, 0x00, 0x00, 0x00] = .illegal 0x00000000 .undefinedOpcode []
  ∧ decode [0xFF, 0xFF, 0xFF, 0xFF] = .illegal 0xFFFFFFFF .undefinedOpcode []
  ∧ decode [0x00, 0x00, 0x00, 0x60] = .illegal 0x60000000 .undefinedOpcode []
  ∧ decode [0x00, 0x00, 0x00, 0x70] = .illegal 0x70000000 .undefinedOpcode []
  ∧ decode [0x00, 0x00, 0x00, 0xA0] = .illegal 0xA0000000 .undefinedOpcode []
  ∧ decode [0x01, 0x00, 0x00, 0x10] = .illegal 0x10000001 .mustBeZeroSet []
  ∧ decode [0x00, 0x00, 0x01, 0x10] = .illegal 0x10010000 .mustBeZeroSet []
  ∧ decode [0x00, 0x00, 0x78, 0x22] = .illegal 0x22780000 .mustBeZeroSet []
  ∧ decode [0x01, 0x00, 0x78, 0x20] = .illegal 0x20780001 .mustBeZeroSet []
  ∧ decode [0x00, 0x00, 0x20, 0x41] = .illegal 0x41200000 .mustBeZeroSet []
  ∧ decode [0x01, 0x00, 0x78, 0x81] = .illegal 0x81780001 .mustBeZeroSet []

/-- Every word of R56 (a) and (b) is illegal, with the reason, and consumes no payload byte. -/
def Obligations.IllegalWordsRefused : Prop :=
  ∀ (w : CmdWord) (rest : List Byte),
    (CmdWord.op w ∈ [0x0#4, 0x6#4, 0x7#4, 0xA#4, 0xB#4, 0xC#4, 0xD#4, 0xE#4, 0xF#4] →
      decode (CmdWord.bytes w ++ rest) = .illegal w .undefinedOpcode rest)
    ∧ (CmdWord.op w ∈ [0x1#4, 0x2#4, 0x3#4, 0x4#4, 0x5#4, 0x8#4, 0x9#4] →
      (CmdWord.z3 w ≠ 0
        ∨ (CmdWord.op w ≠ 0x2#4 ∧ CmdWord.d w ≠ 0)
        ∨ (CmdWord.op w ∈ [0x1#4, 0x3#4, 0x5#4] ∧ CmdWord.a w ≠ 0)
        ∨ (CmdWord.op w ∈ [0x1#4, 0x2#4, 0x3#4, 0x4#4, 0x5#4] ∧ CmdWord.n w ≠ 0)) →
      decode (CmdWord.bytes w ++ rest) = .illegal w .mustBeZeroSet rest)

/-- The address byte under both forms of ADDR_FORM, bit by bit (R6, R55, 90_conflicts.md C2). -/
def Obligations.AddressByteForms : Prop :=
  ∀ (a : Byte) (d : Dir),
    (addrByte .left8 a d).getLsbD 0 = (d == .read)
    ∧ (∀ j, 1 ≤ j → j < 8 → (addrByte .left8 a d).getLsbD j = a.getLsbD j)
    ∧ (addrByte .right7 a d).getLsbD 0 = (d == .read)
    ∧ (∀ j, j < 7 → (addrByte .right7 a d).getLsbD (j + 1) = a.getLsbD j)

/-! ### The step of the machine -/

/-- When it is the sequencer's turn: idle, it runs the complete command at the head of the command port,
the command's bytes removed from the port; running, it runs the command whose descriptor the working
registers hold (R12, R13, R52; whose turn it is: log 2; the operands in Run: log 29). -/
def Obligations.StepRunsDecodedCommand : Prop :=
  ∀ (s s' : State) (i : Instr), turn s = .sequencer s' →
    (∀ rest : List Byte, s'.fsm = .idle → decode s'.cmd = .command i rest →
      step s = exec i { s' with cmd := rest })
    ∧ (s'.fsm = .run → s'.op = i.mnemonic.op → s'.a = operandA i → s'.d = operandD i →
      s'.n = operandN i → s'.pl = i.payload → step s = exec i s')

/-- Acceptance latches the descriptor in one step that produces no event and goes to the first line of the
command's rule; an illegal word is accepted and ended with InvalidRequest, in one step by the model's choice
(R52, R56, R65, R105; log 19). -/
def Obligations.AcceptanceLatchesCommand : Prop :=
  ∀ (s : State) (rest : List Byte), s.agenda = [] → s.fsm = .idle → s.upc = .idle →
    (∀ i : Instr, i.wf = true → s.cmd = encode i ++ rest →
      step s = .next { s with
        cmd := rest
        op := i.mnemonic.op
        a := operandA i
        d := operandD i
        n := operandN i
        pl := i.payload
        k := 0
        fsm := .run
        upc := firstLine i.mnemonic })
    ∧ (∀ (w : CmdWord) (why : IllegalWord), decodeWord w = .error why → s.cmd = CmdWord.bytes w ++ rest →
      step s = .next { s with
        cmd := rest
        op := CmdWord.op w
        a := CmdWord.a w
        d := Dir.ofBit (CmdWord.d w)
        n := CmdWord.n w
        pl := []
        k := 0
        status := 3
        site := 0
        trace := s.trace ++ [.done 3 0] })

/-- A stream that ends inside a command word, or before the payload bytes of a WRITE, is not accepted:
`cmd_valid` is 0 and the sequencer stays idle (R34, R57, R61). -/
def Obligations.IncompleteCommandIsNotAccepted : Prop :=
  ∀ s : State, s.agenda = [] → s.fsm = .idle →
    (s.cmdValid = false → step s = .next s)
    ∧ (s.cmd.length < 4 → s.cmdValid = false ∧ step s = .next s)
    ∧ (∀ (a : Byte) (n : Count) (bs : List Byte),
      s.cmd = CmdWord.bytes (CmdWord.ofFields 0x9 0 a n) ++ bs → bs.length < n.toNat →
        s.cmdValid = false ∧ step s = .next s)

/-- A command offered while another runs is neither accepted nor lost (R53). -/
def Obligations.CommandHeldOffWhileRunning : Prop :=
  ∀ s : State,
    (s.cmdReady = true ↔ s.fsm = .idle)
    ∧ (∀ (bs : List Byte) (rest : List Move), s.agenda = .offer bs :: rest →
      step s = .next { s with agenda := rest, cmd := s.cmd ++ bs })
    ∧ (∀ t : State, s.fsm = .run → step s = .next t → ∃ bs, t.cmd = s.cmd ++ bs)

/-- A step appends at most one event to the trace and changes no parameter (R13, R24, R36). -/
def Obligations.OneEventPerStep : Prop :=
  ∀ s t : State, step s = .next t →
    t.cfg = s.cfg ∧ ∃ es : List Event, t.trace = s.trace ++ es ∧ es.length ≤ 1

/-! ### Waits -/

/-- One step at a wait line: one poll, then leave, stay, count, or begin the timeout at the bound (R65,
R75).  A wait on BTF or RXNE with ADDR held is a data-phase action and stops (R130); `raising` is the
model's own field (log 20); what a poll of CTRL or of STAT2 leaves of the address-clear latch: log 10. -/
def Obligations.WaitLineStep : Prop :=
  ∀ (i : Instr) (s : State) (w : Site) (l : Label),
    s.standsAt i.mnemonic s.upc → lineOf i.mnemonic s.upc = some (.wait w l) →
    (w.dataPhase = true → addrHeld s = true → exec i s = .fault .addrNotCleared)
    ∧ ((w.dataPhase = false ∨ addrHeld s = false) →
      (w.awaited s = true → exec i s = .next { pollOnce w s with k := 0, upc := l })
      ∧ (w.awaited s = false → s.cfg.pollBound = none → exec i s = .next (pollOnce w s))
      ∧ (∀ B, w.awaited s = false → s.cfg.pollBound = some B → s.k + 1 < B →
        exec i s = .next { pollOnce w s with k := s.k + 1 })
      ∧ (∀ B, w.awaited s = false → s.cfg.pollBound = some B → B ≤ s.k + 1 →
        exec i s = .next { pollOnce w s with
          k := s.k + 1
          raising := some w
          upc := timeoutLabel i.mnemonic s.n }))
    ∧ (pollOnce w s).trace = s.trace ++ [w.pollEvent s]

/-- The wait sites of R66: each row's label, site number, poll and awaited condition, and no other
wait. -/
def Obligations.WaitSiteTable : Prop :=
  (∃ l, lineOf .genStart .r67_2 = some (.wait .w1 l))
  ∧ (∃ l, lineOf .sendAddr .r68_1 = some (.wait .w2 l)) ∧ (∃ l, lineOf .sendAddr .r68_3 = some (.wait .w3 l))
  ∧ (∃ l, lineOf .writeByte .r70_2 = some (.wait .w4 l)) ∧ (∃ l, lineOf .write .r95_5 = some (.wait .w4 l))
  ∧ (∃ l, lineOf .genStop .r71_2 = some (.wait .w5 l)) ∧ (∃ l, lineOf .write .r95_8 = some (.wait .w5 l))
  ∧ (∃ l, lineOf .read .r84_7 = some (.wait .w6 l)) ∧ (∃ l, lineOf .read .r84_10 = some (.wait .w7 l))
  ∧ (∃ l, lineOf .read .r85_7 = some (.wait .w8 l)) ∧ (∃ l, lineOf .read .r85_15 = some (.wait .w9 l))
  ∧ (∃ l, lineOf .read .r86_4 = some (.wait .w10 l)) ∧ (∃ l, lineOf .read .r86_7 = some (.wait .w11 l))
  ∧ (∃ l, lineOf .read .r86_16 = some (.wait .w12 l)) ∧ (∃ l, lineOf .read .r86_19 = some (.wait .w13 l))
  ∧ (∀ (m : Mnemonic) (u l : Label) (w : Site), lineOf m u = some (.wait w l) → u.site = some w)
  ∧ [Site.w1, .w2, .w3, .w4, .w5, .w6, .w7, .w8, .w9, .w10, .w11, .w12, .w13].map Site.number
      = [1, 2, 3, 4, 5, 6, 7, 8, 9, 10, 11, 12, 13]
  ∧ (∀ s : State,
    Site.w1.pollEvent s = .s2 s.stat2
    ∧ (s.cfg.masterEntered = .literal →
      Site.w1.awaited s = (!busyOf s.cfg.layout s.stat2 && mslOf s.cfg.layout s.stat2))
    ∧ Site.w2.pollEvent s = .s1 s.stat1 ∧ Site.w2.awaited s = sbOf s.cfg.layout s.stat1
    ∧ Site.w3.pollEvent s = .s1 s.stat1 ∧ Site.w3.awaited s = addrOf s.cfg.layout s.stat1
    ∧ (∀ w ∈ [Site.w4, .w8, .w10, .w11],
      w.pollEvent s = .s1 s.stat1 ∧ w.awaited s = btfOf s.cfg.layout s.stat1)
    ∧ (∀ w ∈ [Site.w6, .w12],
      w.pollEvent s = .s1 s.stat1 ∧ w.awaited s = rxneOf s.cfg.layout s.stat1)
    ∧ (∀ w ∈ [Site.w5, .w7, .w9, .w13], w.pollEvent s = .cr .stop s.stop ∧ w.awaited s = !s.stop))

/-- With no bound, a wait whose flag never comes polls for ever: after any number of steps the
sequencer still stands at it, running, with nothing but polls in its trace and IM 0 (R65, R72, R121). -/
def Obligations.UnansweredWaitHangs : Prop :=
  ∀ (s : State) (m : Mnemonic) (w : Site) (l : Label),
    s.standsAt m s.upc → lineOf m s.upc = some (.wait w l) → s.agenda = [] → s.maskInv →
    s.cfg.pollBound = none → w.awaited s = false → (w.dataPhase = true → addrHeld s = false) →
    ∀ n : Nat, ∃ t : State, Sys2Proof.core.run n s = .next t
      ∧ t.standsAt m s.upc ∧ t.im = false ∧ t.trace = s.trace ++ List.replicate n (w.pollEvent s)

/-- With a bound `B`, a wait whose flag never comes makes exactly `B` polls, stays at its line before
the last of them, and then goes to the clean-up with its site remembered (R65, R103, R106; `raising` is
the model's own field, log 20). -/
def Obligations.BoundedWaitTimesOut : Prop :=
  ∀ (s : State) (m : Mnemonic) (w : Site) (l : Label) (B : Nat),
    s.standsAt m s.upc → lineOf m s.upc = some (.wait w l) → s.agenda = [] →
    s.cfg.pollBound = some B → 1 ≤ B → s.k = 0 → w.awaited s = false →
    (w.dataPhase = true → addrHeld s = false) →
    (∀ j, j < B → ∃ t : State, Sys2Proof.core.run j s = .next t ∧ t.standsAt m s.upc ∧ t.k = j
      ∧ t.raising = s.raising ∧ t.trace = s.trace ++ List.replicate j (w.pollEvent s))
    ∧ ∃ t : State, Sys2Proof.core.run B s = .next t ∧ t.standsAt m (timeoutLabel m s.n) ∧ t.k = B
      ∧ t.raising = some w ∧ t.trace = s.trace ++ List.replicate B (w.pollEvent s)

/-- A wait is left only by a successful poll, by the timeout of a bound, or by reset (R72, R121; `raising`, which
says which wait timed out, is the model's own field: log 20). -/
def Obligations.WaitLeftOnlyBySuccess : Prop :=
  ∀ (s t : State) (m : Mnemonic) (w : Site) (l : Label),
    s.standsAt m s.upc → lineOf m s.upc = some (.wait w l) → step s = .next t → t.upc ≠ s.upc →
      (w.awaited s = true ∧ t.upc = l)
      ∨ (w.awaited s = false ∧ t.raising = some w ∧ ∃ B, s.cfg.pollBound = some B ∧ B ≤ s.k + 1)
      ∨ s.agenda.head? = some .reset

/-- A run under a bound in which no wait times out is step for step the run without a bound: same
states but for `x[k]` and the parameter itself, so the same trace (R65, R103; `raising`, which says that a
wait timed out, is the model's own field: log 20). -/
def Obligations.BoundDoesNotChangeSuccess : Prop :=
  ∀ (n : Nat) (s t t' : State),
    sameButBound s t → s.cfg.pollBound = none → Sys2Proof.core.run n t = .next t' →
    (∀ (j : Nat) (u : State), j ≤ n → Sys2Proof.core.run j t = .next u → u.raising = none) →
    ∃ s' : State, Sys2Proof.core.run n s = .next s' ∧ sameButBound s' t' ∧ s'.trace = t'.trace

/-! ### The primitives -/

/-- The lines of the five primitive commands that are neither waits nor returns nor the end of a timeout, which have
statements of their own (R67 to R71, 20_memory.md
R40; what becomes of the address-clear latch, of a start that waits for its address byte and of an outstanding
address phase: log 9, log 10). -/
def Obligations.PrimitiveLines : Prop :=
  ∀ s : State,
    (s.standsAt .genStart .r67_1 → exec .genStart s = .next { s with
      start := true, startDue := true, s1Latch := false, upc := .r67_2, trace := s.trace ++ [.cw .start true] })
    ∧ (∀ (a : Byte) (d : Dir), s.standsAt .sendAddr .r68_2 → (addrHeld s = false ∨ s.startDue = true) →
      exec (.sendAddr a d) s = .next { s with
      tx := s.tx ++ [addrByte s.cfg.addrForm s.a s.d],
      addrSent := s.addrSent || s.startDue, startDue := false, s1Latch := false, upc := .r68_3,
      trace := s.trace ++ [.dw (addrByte s.cfg.addrForm s.a s.d)] })
    ∧ (s.standsAt .clrAddr .r69_1 → exec .clrAddr s = .next { s with
      s1Latch := true, upc := .r69_2, trace := s.trace ++ [.s1 s.stat1] })
    ∧ (s.standsAt .clrAddr .r69_2 → exec .clrAddr s = .next { s with
      stat1 := if s.s1Latch && addrOf s.cfg.layout s.stat1 then s.stat1Cleared else s.stat1,
      addrSent := if s.s1Latch && addrOf s.cfg.layout s.stat1 then false else s.addrSent,
      s1Latch := false, upc := .r69_3, trace := s.trace ++ [.s2 s.stat2] })
    ∧ (∀ v : Byte, s.standsAt .writeByte .r70_1 → addrHeld s = false → exec (.writeByte v) s = .next { s with
      tx := s.tx ++ [s.a], addrSent := s.addrSent || s.startDue, startDue := false, s1Latch := false,
      upc := .r70_2, trace := s.trace ++ [.dw s.a] })
    ∧ (s.standsAt .genStop .r71_1 → addrHeld s = false → exec .genStop s = .next { s with
      stop := true, s1Latch := false, upc := .r71_2, trace := s.trace ++ [.cw .stop true] })

/-- The return line of every command reports success and makes the sequencer idle (00_scope.md R8,
10_state.md R14, R16, the last lines of R67 to R71, R84 to R86 and R95). -/
def Obligations.ReturnLines : Prop :=
  ∀ (i : Instr) (s : State),
    (i.mnemonic, s.upc) ∈ [(Mnemonic.genStart, Label.r67_3), (.sendAddr, .r68_4), (.clrAddr, .r69_3),
      (.writeByte, .r70_3), (.genStop, .r71_3), (.read, .r84_12), (.read, .r85_18), (.read, .r86_21),
      (.write, .r95_9)] →
    s.standsAt i.mnemonic s.upc →
    exec i s = .next { s with
      status := 0, site := 0, fsm := .idle, upc := .idle, trace := s.trace ++ [.done 0 0] }

/-- GEN_START under a controller that answers at once: trace `CW(START,1); S2; DONE(0,0)`, and nothing
else changes (R67, 95_test_vectors.md V3; `startDue` and the address-clear latch: log 9, log 10). -/
def Obligations.GenStartCompletes : Prop :=
  ∀ (s : State) (rest : List Byte),
    s.agenda = [] → s.fsm = .idle → s.upc = .idle → s.cmd = encode .genStart ++ rest →
    masterEntered s.cfg s.stat2 = true →
    Sys2Proof.core.run 4 s = .next { s with
      cmd := rest, op := 0x1, a := 0, d := .write, n := 0, pl := [], k := 0, start := true,
      startDue := true, s1Latch := false, status := 0, site := 0,
      trace := s.trace ++ [.cw .start true, .s2 s.stat2, .done 0 0] }

/-- SEND_ADDR under a controller that answers at once: trace `S1; DW(AddrByte(a,d)); S1; DONE(0,0)`,
and ADDR is left 1, its last poll not counted as the first half of the clearing: whether STAT1 shows SB and ADDR
all along, or ADDR rises after the address byte that follows a start (R42, R68, V3; the controller's move: log 2;
`startDue` and `addrSent`: log 9; a half-done pair dropped by that poll: log 10). -/
def Obligations.SendAddrCompletes : Prop :=
  (∀ (s : State) (a : Byte) (d : Dir) (rest : List Byte),
    s.agenda = [] → s.fsm = .idle → s.upc = .idle → s.cmd = encode (.sendAddr a d) ++ rest →
    s.startDue = true → sbOf s.cfg.layout s.stat1 = true → addrOf s.cfg.layout s.stat1 = true →
    Sys2Proof.core.run 5 s = .next { s with
      cmd := rest, op := 0x2, a := a, d := d, n := 0, pl := [], k := 0,
      tx := s.tx ++ [addrByte s.cfg.addrForm a d], addrSent := true, startDue := false,
      s1Latch := false, status := 0, site := 0,
      trace := s.trace ++ [.s1 s.stat1, .dw (addrByte s.cfg.addrForm a d), .s1 s.stat1, .done 0 0] })
  ∧ (∀ (s : State) (a : Byte) (d : Dir) (rest : List Byte) (w : Word),
    s.agenda = [.sequencer, .sequencer, .sequencer, .stat1 w] → s.fsm = .idle → s.upc = .idle →
    s.cmd = encode (.sendAddr a d) ++ rest → s.startDue = true →
    sbOf s.cfg.layout s.stat1 = true → addrOf s.cfg.layout s.stat1 = false → addrOf s.cfg.layout w = true →
    Sys2Proof.core.run 6 s = .next { s with
      agenda := [], cmd := rest, op := 0x2, a := a, d := d, n := 0, pl := [], k := 0, stat1 := w,
      tx := s.tx ++ [addrByte s.cfg.addrForm a d], addrSent := false, startDue := false,
      s1Latch := false, status := 0, site := 0,
      trace := s.trace ++ [.s1 s.stat1, .dw (addrByte s.cfg.addrForm a d), .s1 w, .done 0 0] })

/-- CLR_ADDR reads STAT1, then STAT2, and ADDR is 0 after it; with ADDR already 0 STAT1 is unchanged
(R42, R69, V3; `s1Latch` and `addrSent`: log 9, log 10). -/
def Obligations.ClrAddrCompletes : Prop :=
  ∀ (s : State) (rest : List Byte),
    s.agenda = [] → s.fsm = .idle → s.upc = .idle → s.cmd = encode .clrAddr ++ rest →
    Sys2Proof.core.run 4 s = .next { s with
      cmd := rest, op := 0x3, a := 0, d := .write, n := 0, pl := [], k := 0,
      stat1 := if addrOf s.cfg.layout s.stat1 then s.stat1Cleared else s.stat1,
      addrSent := if addrOf s.cfg.layout s.stat1 then false else s.addrSent,
      s1Latch := false, status := 0, site := 0,
      trace := s.trace ++ [.s1 s.stat1, .s2 s.stat2, .done 0 0] }
    ∧ addrOf s.cfg.layout s.stat1Cleared = false

/-- WRITE_BYTE with ADDR cleared, under a controller that answers at once: trace `DW(v); S1;
DONE(0,0)` (R70, V3; `s1Latch`, `startDue` and `addrSent`: log 9, log 10). -/
def Obligations.WriteByteCompletes : Prop :=
  ∀ (s : State) (v : Byte) (rest : List Byte),
    s.agenda = [] → s.fsm = .idle → s.upc = .idle → s.cmd = encode (.writeByte v) ++ rest →
    addrHeld s = false → btfOf s.cfg.layout s.stat1 = true →
    Sys2Proof.core.run 4 s = .next { s with
      cmd := rest, op := 0x4, a := v, d := .write, n := 0, pl := [], k := 0, tx := s.tx ++ [v],
      addrSent := s.addrSent || s.startDue, startDue := false, s1Latch := true, status := 0, site := 0,
      trace := s.trace ++ [.dw v, .s1 s.stat1, .done 0 0] }

/-- GEN_STOP with ADDR cleared, the controller clearing STOP after the request: trace `CW(STOP,1);
CR(STOP)->0; DONE(0,0)` (R41, R71, V3; the controller's move is an entry of the agenda: log 2,
log 12; `s1Latch`: log 10). -/
def Obligations.GenStopCompletes : Prop :=
  ∀ (s : State) (rest : List Byte),
    s.agenda = [.sequencer, .sequencer, .clearStop] → s.fsm = .idle → s.upc = .idle →
    s.cmd = encode .genStop ++ rest → addrHeld s = false →
    Sys2Proof.core.run 5 s = .next { s with
      agenda := [], cmd := rest, op := 0x5, a := 0, d := .write, n := 0, pl := [], k := 0,
      stop := false, s1Latch := false, status := 0, site := 0,
      trace := s.trace ++ [.cw .stop true, .cr .stop false, .done 0 0] }

/-- The primitives leave ACK, POS, IM, `x[rem]`, `x[rxb]` and the Byte Sink as they are and do not read
DATA (R74). -/
def Obligations.PrimitivesLeaveUntouched : Prop :=
  ∀ (i : Instr) (s t : State),
    i.mnemonic ∈ [Mnemonic.genStart, .sendAddr, .clrAddr, .writeByte, .genStop] → exec i s = .next t →
      t.ack = s.ack ∧ t.pos = s.pos ∧ t.im = s.im ∧ t.rem = s.rem ∧ t.rxb = s.rxb ∧ t.sink = s.sink
      ∧ t.rx = s.rx ∧ t.draws = s.draws

/-- Every data-phase action of every command is a fault while ADDR is 1, and nothing else is for that reason
(R42, R130, 93_implementation_defined.md U2).  The byte of SEND_ADDR is a data byte, and its write such an
action, when it follows no start condition (R40; when that is: log 9). -/
def Obligations.DataPhaseNeedsAddrCleared : Prop :=
  (∀ (i : Instr) (s : State) (ln : Line), s.standsAt i.mnemonic s.upc →
    lineOf i.mnemonic s.upc = some ln → ln.dataPhase s = true → addrOf s.cfg.layout s.stat1 = true →
    exec i s = .fault .addrNotCleared)
  ∧ (∀ (s : State) (m : Mnemonic) (l : Label), (m, l) ∈ [(Mnemonic.writeByte, Label.r70_1), (.writeByte, .r70_2),
      (.genStop, .r71_1), (.read, .r84_5), (.read, .r84_7), (.read, .r84_8), (.read, .r85_7), (.read, .r85_9),
      (.read, .r85_10), (.read, .r85_13), (.read, .r86_4), (.read, .r86_5), (.read, .r86_7), (.read, .r86_10),
      (.read, .r86_12), (.read, .r86_13), (.read, .r86_16), (.read, .r86_17), (.write, .r95_4),
      (.write, .r95_5), (.write, .r95_7)] → ∃ ln, lineOf m l = some ln ∧ ln.dataPhase s = true)
  ∧ (∀ (s : State) (m : Mnemonic), m ∈ [Mnemonic.sendAddr, .read, .write] →
    ∃ ln, lineOf m .r68_2 = some ln ∧ (ln.dataPhase s = true ↔ s.startDue = false))
  ∧ (∀ (v : Byte) (s : State), s.standsAt .writeByte .r70_1 → addrHeld s = true →
    exec (.writeByte v) s = .fault .addrNotCleared)
  ∧ (∀ s : State, s.standsAt .genStop .r71_1 → addrHeld s = true → exec .genStop s = .fault .addrNotCleared)
  ∧ (∀ (i : Instr) (s : State), exec i s = .fault .addrNotCleared →
    s.fsm = .run ∧ addrHeld s = true
    ∧ ((s.upc = .r68_2 ∧ s.startDue = false)
      ∨ s.upc ∈ [Label.r70_1, .r70_2, .r71_1, .r84_5, .r84_7, .r84_8, .r85_7, .r85_9, .r85_10, .r85_13,
        .r86_4, .r86_5, .r86_7, .r86_10, .r86_12, .r86_13, .r86_16, .r86_17, .r95_4, .r95_5, .r95_7]))

/-- The clearing of ADDR: STAT1 then STAT2 clears it and no other bit of STAT1; STAT1 alone does not
clear it; STAT2 with STAT1 not read before it does not clear it; the controller itself does not clear it,
and sets it only at the end of an address phase.  And of all steps of the machine, whoever moves, ADDR falls
only at a read of STAT2 that completes the pair, and rises only at a change of STAT1 by the controller in an
outstanding address phase (R42; the latch: log 10; the address phase: log 9). -/
def Obligations.AddrClearedByThePairOnly : Prop :=
  (∀ s : State,
    addrOf s.cfg.layout (readStat2 (readStat1 s)).stat1 = false
    ∧ (∀ j, j < 16 → j ≠ s.cfg.layout.addr →
      (readStat2 (readStat1 s)).stat1.getLsbD j = s.stat1.getLsbD j)
    ∧ addrHeld (readStat2 (readStat1 s)) = false
    ∧ (readStat1 s).stat1 = s.stat1 ∧ addrHeld (readStat1 s) = addrHeld s
    ∧ (s.s1Latch = false → (readStat2 s).stat1 = s.stat1 ∧ addrHeld (readStat2 s) = addrHeld s)
    ∧ (∀ w : Word, addrHeld s = true → addrHeld (setStat1 w s) = true)
    ∧ (∀ w : Word, addrHeld s = false → s.addrSent = false → addrHeld (setStat1 w s) = false)
    ∧ (∀ w : Word, addrHeld s = false → s.addrSent = true → (setStat1 w s).stat1 = w))
  ∧ (∀ s t : State, step s = .next t → addrHeld s = true → addrHeld t = false →
    s.s1Latch = true ∧ t.s1Latch = false ∧ t.stat1 = s.stat1Cleared
    ∧ (t.trace = s.trace ++ [.s2 s.stat2] ∨ s.agenda.head? = some (.foreign .stat2)))
  ∧ (∀ s t : State, step s = .next t → addrHeld s = false → addrHeld t = true →
    s.addrSent = true ∧ ∃ w : Word, s.agenda.head? = some (.stat1 w) ∧ t.stat1 = w)

/-! ### READ -/

/-- The two checks of READ come before any event, the zero test first (R81). -/
def Obligations.ReadChecks : Prop :=
  ∀ (a : Byte) (n : Count) (s : State),
    (s.standsAt .read .r81_1 → s.n = 0 → exec (.read a n) s = .next { s with
      k := 0, status := 3, site := 0, fsm := .idle, upc := .idle, trace := s.trace ++ [.done 3 0] })
    ∧ (s.standsAt .read .r81_1 → s.n ≠ 0 → exec (.read a n) s = .next { s with upc := .r81_2 })
    ∧ (s.standsAt .read .r81_2 → s.cfg.sinkCap < s.n.toNat → exec (.read a n) s = .next { s with
      k := 0, status := 1, site := 0, fsm := .idle, upc := .idle, trace := s.trace ++ [.done 1 0] })
    ∧ (s.standsAt .read .r81_2 → s.n.toNat ≤ s.cfg.sinkCap →
      exec (.read a n) s = .next { s with upc := .r83_1 })

/-- Entry, variant selection and the loop test of READ (R83, R86.3, R87). -/
def Obligations.ReadDispatch : Prop :=
  ∀ (a : Byte) (n : Count) (s : State),
    (s.standsAt .read .r83_1 → exec (.read a n) s = .next { s with
      rem := s.n, d := .read, upc := .r67_1 })
    ∧ (s.standsAt .read .r83_2 → s.n = 1 → exec (.read a n) s = .next { s with upc := .r84_1 })
    ∧ (s.standsAt .read .r83_2 → s.n = 2 → exec (.read a n) s = .next { s with upc := .r85_1 })
    ∧ (s.standsAt .read .r83_2 → s.n ≠ 1 → s.n ≠ 2 → exec (.read a n) s = .next { s with upc := .r86_1 })
    ∧ (s.standsAt .read .r86_3 → 3 < s.rem.toNat → exec (.read a n) s = .next { s with upc := .r86_4 })
    ∧ (s.standsAt .read .r86_3 → s.rem.toNat ≤ 3 → exec (.read a n) s = .next { s with upc := .r86_7 })

/-- The control writes, mask changes and clearing reads of READ, line by line (R83 to R86, R111; the
address-clear latch, the start and the address phase outstanding: log 9, log 10; a stop request with ADDR held
stops: R130). -/
def Obligations.ReadRegisterLines : Prop :=
  ∀ (a : Byte) (n : Count) (s : State) (l : Label),
    (∀ (f : CtlField) (b : Bool), s.standsAt .read s.upc → (f = .stop → addrHeld s = false) →
      (s.upc, l, f, b) ∈ [(Label.r67_1, Label.r67_2, CtlField.start, true),
        (.r84_1, .r84_2, .ack, false), (.r84_5, .r84_6, .stop, true), (.r84_11, .r84_12, .ack, true),
        (.r85_1, .r85_2, .pos, true), (.r85_5, .r85_6, .ack, false), (.r85_9, .r85_10, .stop, true),
        (.r85_16, .r85_17, .pos, false), (.r85_17, .r85_18, .ack, true),
        (.r86_8, .r86_9, .ack, false), (.r86_12, .r86_13, .stop, true), (.r86_20, .r86_21, .ack, true)] →
      exec (.read a n) s = .next { s.setCtl f b with
        startDue := s.startDue || (f == .start && b), s1Latch := false, upc := l, trace := s.trace ++ [.cw f b] })
    ∧ (∀ b : Bool, s.standsAt .read s.upc →
      (s.upc, l, b) ∈ [(Label.r84_2, Label.r84_3, true), (.r84_6, .r84_7, false), (.r85_2, .r85_3, true),
        (.r85_6, .r85_7, false), (.r85_8, .r85_9, true), (.r85_12, .r85_13, false),
        (.r86_9, .r86_10, true), (.r86_15, .r86_16, false)] →
      exec (.read a n) s = .next { s with im := b, upc := l, trace := s.trace ++ [.im b] })
    ∧ (s.standsAt .read s.upc →
      (s.upc, l) ∈ [(Label.r84_3, Label.r84_4), (.r85_3, .r85_4), (.r86_1, .r86_2)] →
      exec (.read a n) s = .next { s with s1Latch := true, upc := l, trace := s.trace ++ [.s1 s.stat1] })
    ∧ (s.standsAt .read s.upc → s.s1Latch = true → addrOf s.cfg.layout s.stat1 = true →
      (s.upc, l) ∈ [(Label.r84_4, Label.r84_5), (.r85_4, .r85_5), (.r86_2, .r86_3)] →
      exec (.read a n) s = .next { s with
        stat1 := s.stat1Cleared, addrSent := false, s1Latch := false, upc := l,
        trace := s.trace ++ [.s2 s.stat2] })
    ∧ (s.standsAt .read .r68_2 → (addrHeld s = false ∨ s.startDue = true) →
      exec (.read a n) s = .next { s with
      tx := s.tx ++ [addrByte s.cfg.addrForm s.a s.d],
      addrSent := s.addrSent || s.startDue, startDue := false, s1Latch := false, upc := .r68_3,
      trace := s.trace ++ [.dw (addrByte s.cfg.addrForm s.a s.d)] })

/-- The reads of DATA: the oldest received byte, removed from the controller; some byte, nothing
constraining it, when none has been received (R18, R40, R82, U4; log 11); a stop with ADDR held
(R130).  That such a read drops the address-clear latch: log 10. -/
def Obligations.ReadDataLines : Prop :=
  ∀ (a : Byte) (n : Count) (s : State) (l : Label),
    s.standsAt .read s.upc →
    (s.upc, l) ∈ [(Label.r84_8, Label.r84_9), (.r85_10, .r85_11), (.r85_13, .r85_14), (.r86_5, .r86_6),
      (.r86_10, .r86_11), (.r86_13, .r86_14), (.r86_17, .r86_18)] →
    (∀ (v : Byte) (rest : List Byte), addrHeld s = false → s.rx = v :: rest →
      exec (.read a n) s = .next { s with
        rx := rest, rxb := v, s1Latch := false, upc := l, trace := s.trace ++ [.dr v] })
    ∧ (addrHeld s = false → s.rx = [] → ∃ v : Byte, exec (.read a n) s = .next { s with
        rxb := v, draws := s.draws + 1, s1Latch := false, upc := l, trace := s.trace ++ [.dr v] })
    ∧ (addrHeld s = true → exec (.read a n) s = .fault .addrNotCleared)

/-- The pushes of READ append `x[rxb]` at the tail and count down; a push onto a sink that holds
SINK_CAP bytes is a fault, and no other line raises it (R22, R38, R82, R120). -/
def Obligations.ReadPushLines : Prop :=
  (∀ (a : Byte) (n : Count) (s : State) (l : Label),
    s.standsAt .read s.upc →
    (s.upc, l) ∈ [(Label.r84_9, Label.r84_10), (.r85_11, .r85_12), (.r85_14, .r85_15), (.r86_6, .r86_3),
      (.r86_11, .r86_12), (.r86_14, .r86_15), (.r86_18, .r86_19)] →
    (s.sink.length < s.cfg.sinkCap → exec (.read a n) s = .next { s with
      sink := s.sink ++ [s.rxb], rem := s.rem - 1, upc := l, trace := s.trace ++ [.push s.rxb] })
    ∧ (s.cfg.sinkCap ≤ s.sink.length → exec (.read a n) s = .fault .sinkOverrun))
  ∧ (∀ (i : Instr) (s : State), exec i s = .fault .sinkOverrun →
    s.fsm = .run ∧ s.op = Mnemonic.read.op ∧ s.cfg.sinkCap ≤ s.sink.length
    ∧ s.upc ∈ [Label.r84_9, .r85_11, .r85_14, .r86_6, .r86_11, .r86_14, .r86_18])

/-- READ of one byte, the controller answering every poll at once and clearing STOP before it is polled:
the 17 events of V6, and everything it leaves, for a STAT1 that shows every flag all along, and from a legal launch
with ADDR 0, the controller raising ADDR after the address byte (R42, R83, R84, R90, R128; the controller's moves:
log 2; what a legal launch is: log 13; latches: log 9, log 10). -/
def Obligations.ReadSingleCompletes : Prop :=
  (∀ (s : State) (a b : Byte) (rest more : List Byte),
    s.agenda = List.replicate 19 .sequencer ++ [.clearStop] → s.fsm = .idle → s.upc = .idle →
    s.cmd = encode (.read a 1) ++ rest → s.cfg.wf = true → s.answersAtOnce = true →
    s.sinkRoom 1 = true → s.rx = b :: more →
    Sys2Proof.core.run 23 s = .next { s with
      agenda := [], cmd := rest, op := 0x8, a := a, d := .read, n := 1, pl := [], k := 0, rem := 0, rxb := b,
      im := false, start := true, stop := false, ack := true, stat1 := s.stat1Cleared, startDue := false,
      addrSent := false, s1Latch := false, rx := more, tx := s.tx ++ [addrByte s.cfg.addrForm a .read],
      sink := s.sink ++ [b],
      status := 0, site := 0,
      trace := s.trace ++ [.cw .start true, .s2 s.stat2, .s1 s.stat1,
        .dw (addrByte s.cfg.addrForm a .read), .s1 s.stat1,
        .cw .ack false, .im true, .s1 s.stat1, .s2 s.stat2, .cw .stop true, .im false,
        .s1 s.stat1Cleared, .dr b, .push b, .cr .stop false, .cw .ack true, .done 0 0] })
  ∧ (∀ (s : State) (a b : Byte) (rest more : List Byte) (w : Word),
    s.agenda = List.replicate 8 .sequencer ++ [.stat1 w] ++ List.replicate 11 .sequencer
      ++ [.clearStop] → s.fsm = .idle → s.upc = .idle →
    s.cmd = encode (.read a 1) ++ rest → s.cfg.wf = true → s.answersFromLaunch w = true →
    s.sinkRoom 1 = true → s.rx = b :: more →
    Sys2Proof.core.run 24 s = .next { s with
      agenda := [], cmd := rest, op := 0x8, a := a, d := .read, n := 1, pl := [], k := 0, rem := 0, rxb := b,
      im := false, start := true, stop := false, ack := true, stat1 := withoutAddr s.cfg.layout w,
      startDue := false, addrSent := false, s1Latch := false, rx := more, tx := s.tx ++ [addrByte s.cfg.addrForm a .read],
      sink := s.sink ++ [b],
      status := 0, site := 0,
      trace := s.trace ++ [.cw .start true, .s2 s.stat2, .s1 s.stat1,
        .dw (addrByte s.cfg.addrForm a .read), .s1 w,
        .cw .ack false, .im true, .s1 w, .s2 s.stat2, .cw .stop true, .im false,
        .s1 (withoutAddr s.cfg.layout w), .dr b, .push b, .cr .stop false, .cw .ack true, .done 0 0] })

/-- READ of two bytes likewise: the 23 events of V7, with every flag shown all along and from a legal launch
(R42, R83, R85, R90, R128; log 2, log 9, log 10, log 13). -/
def Obligations.ReadDoubleCompletes : Prop :=
  (∀ (s : State) (a b c : Byte) (rest more : List Byte),
    s.agenda = List.replicate 24 .sequencer ++ [.clearStop] → s.fsm = .idle → s.upc = .idle →
    s.cmd = encode (.read a 2) ++ rest → s.cfg.wf = true → s.answersAtOnce = true →
    s.sinkRoom 2 = true → s.rx = b :: c :: more →
    Sys2Proof.core.run 29 s = .next { s with
      agenda := [], cmd := rest, op := 0x8, a := a, d := .read, n := 2, pl := [], k := 0, rem := 0, rxb := c,
      im := false, start := true, stop := false, ack := true, pos := false, stat1 := s.stat1Cleared,
      startDue := false, addrSent := false, s1Latch := false, rx := more, tx := s.tx ++ [addrByte s.cfg.addrForm a .read],
      sink := s.sink ++ [b, c], status := 0, site := 0,
      trace := s.trace ++ [.cw .start true, .s2 s.stat2, .s1 s.stat1,
        .dw (addrByte s.cfg.addrForm a .read), .s1 s.stat1,
        .cw .pos true, .im true, .s1 s.stat1, .s2 s.stat2, .cw .ack false, .im false,
        .s1 s.stat1Cleared, .im true, .cw .stop true, .dr b, .push b, .im false, .dr c, .push c,
        .cr .stop false, .cw .pos false, .cw .ack true, .done 0 0] })
  ∧ (∀ (s : State) (a b c : Byte) (rest more : List Byte) (w : Word),
    s.agenda = List.replicate 8 .sequencer ++ [.stat1 w] ++ List.replicate 16 .sequencer
      ++ [.clearStop] → s.fsm = .idle → s.upc = .idle →
    s.cmd = encode (.read a 2) ++ rest → s.cfg.wf = true → s.answersFromLaunch w = true →
    s.sinkRoom 2 = true → s.rx = b :: c :: more →
    Sys2Proof.core.run 30 s = .next { s with
      agenda := [], cmd := rest, op := 0x8, a := a, d := .read, n := 2, pl := [], k := 0, rem := 0, rxb := c,
      im := false, start := true, stop := false, ack := true, pos := false, stat1 := withoutAddr s.cfg.layout w,
      startDue := false, addrSent := false, s1Latch := false, rx := more, tx := s.tx ++ [addrByte s.cfg.addrForm a .read],
      sink := s.sink ++ [b, c], status := 0, site := 0,
      trace := s.trace ++ [.cw .start true, .s2 s.stat2, .s1 s.stat1,
        .dw (addrByte s.cfg.addrForm a .read), .s1 w,
        .cw .pos true, .im true, .s1 w, .s2 s.stat2, .cw .ack false, .im false,
        .s1 (withoutAddr s.cfg.layout w), .im true, .cw .stop true, .dr b, .push b, .im false, .dr c, .push c,
        .cr .stop false, .cw .pos false, .cw .ack true, .done 0 0] })

/-- READ of N bytes for every N from 3 to 65535 likewise: N - 3 rounds of the loop, then the tail once, with every
flag shown all along and from a legal launch (R42, R83, R86, R87, R88, R90, R128, V8 to V10; log 2, log 9,
log 10, log 13). -/
def Obligations.ReadBulkCompletes : Prop :=
  (∀ (s : State) (a x y z : Byte) (n : Count) (front rest more : List Byte),
    n.toNat = front.length + 3 →
    s.agenda = List.replicate (4 * n.toNat + 13) .sequencer ++ [.clearStop] →
    s.fsm = .idle → s.upc = .idle →
    s.cmd = encode (.read a n) ++ rest → s.cfg.wf = true → s.answersAtOnce = true →
    s.sinkRoom n.toNat = true → s.rx = front ++ [x, y, z] ++ more →
    Sys2Proof.core.run (4 * n.toNat + 17) s = .next { s with
      agenda := [], cmd := rest, op := 0x8, a := a, d := .read, n := n, pl := [], k := 0, rem := 0, rxb := z,
      im := false, start := true, stop := false, ack := true, stat1 := s.stat1Cleared, startDue := false,
      addrSent := false, s1Latch := false, rx := more, tx := s.tx ++ [addrByte s.cfg.addrForm a .read],
      sink := s.sink ++ front ++ [x, y, z], status := 0, site := 0,
      trace := s.trace ++ [.cw .start true, .s2 s.stat2, .s1 s.stat1,
          .dw (addrByte s.cfg.addrForm a .read), .s1 s.stat1, .s1 s.stat1, .s2 s.stat2]
        ++ front.flatMap (fun b => [.s1 s.stat1Cleared, .dr b, .push b])
        ++ [.s1 s.stat1Cleared, .cw .ack false, .im true, .dr x, .push x, .cw .stop true, .dr y, .push y,
          .im false, .s1 s.stat1Cleared, .dr z, .push z, .cr .stop false, .cw .ack true, .done 0 0] })
  ∧ (∀ (s : State) (a x y z : Byte) (n : Count) (front rest more : List Byte) (w : Word),
    n.toNat = front.length + 3 →
    s.agenda = List.replicate 8 .sequencer ++ [.stat1 w] ++ List.replicate (4 * n.toNat + 5) .sequencer
      ++ [.clearStop] →
    s.fsm = .idle → s.upc = .idle →
    s.cmd = encode (.read a n) ++ rest → s.cfg.wf = true → s.answersFromLaunch w = true →
    s.sinkRoom n.toNat = true → s.rx = front ++ [x, y, z] ++ more →
    Sys2Proof.core.run (4 * n.toNat + 18) s = .next { s with
      agenda := [], cmd := rest, op := 0x8, a := a, d := .read, n := n, pl := [], k := 0, rem := 0, rxb := z,
      im := false, start := true, stop := false, ack := true, stat1 := withoutAddr s.cfg.layout w,
      startDue := false, addrSent := false, s1Latch := false, rx := more, tx := s.tx ++ [addrByte s.cfg.addrForm a .read],
      sink := s.sink ++ front ++ [x, y, z], status := 0, site := 0,
      trace := s.trace ++ [.cw .start true, .s2 s.stat2, .s1 s.stat1,
          .dw (addrByte s.cfg.addrForm a .read), .s1 w, .s1 w, .s2 s.stat2]
        ++ front.flatMap (fun b => [.s1 (withoutAddr s.cfg.layout w), .dr b, .push b])
        ++ [.s1 (withoutAddr s.cfg.layout w), .cw .ack false, .im true, .dr x, .push x, .cw .stop true, .dr y, .push y,
          .im false, .s1 (withoutAddr s.cfg.layout w), .dr z, .push z, .cr .stop false, .cw .ack true, .done 0 0] })

/-- What a READ that ends with success leaves, whatever the controller did: N bytes pushed, each of them
the byte read for it, ACK 1, POS 0, IM 0, `x[rem]` 0, the result, and the sequencer idle (R90).  `traceInv`
and `ackInv` are statements of their own. -/
def Obligations.ReadPostconditions : Prop :=
  ∀ (a : Byte) (n : Count) (s t : State),
    s.Inv → s.ackInv → s.traceInv → s.fsm = .run → s.n = n → exec (.read a n) s = .next t →
    t.fsm = .idle → t.status = 0 →
      t.trace = s.trace ++ [.done 0 0]
      ∧ (pushesOf (commandEvents s.trace)).length = n.toNat
      ∧ pushesOf (commandEvents s.trace) = readsOf (commandEvents s.trace)
      ∧ t.ack = true ∧ t.pos = false ∧ t.im = false ∧ t.rem = 0 ∧ t.site = 0 ∧ t.upc = .idle

/-- READ changes no more than what R80 lists and what its accesses do in the controller: no descriptor
field but `x[d]`, not PE, nothing of the command port, the payload, the write index or the parameters. -/
def Obligations.ReadFrame : Prop :=
  ∀ (a : Byte) (n : Count) (s t : State), s.fsm = .run → exec (.read a n) s = .next t →
    t = { s with
      fsm := t.fsm, upc := t.upc, im := t.im, status := t.status, site := t.site, d := t.d, rem := t.rem,
      rxb := t.rxb, k := t.k, raising := t.raising, ack := t.ack, start := t.start, stop := t.stop,
      pos := t.pos, stat1 := t.stat1, startDue := t.startDue, addrSent := t.addrSent,
      s1Latch := t.s1Latch, rx := t.rx, tx := t.tx,
      draws := t.draws, sink := t.sink, trace := t.trace }
    ∧ (s.start = true → t.start = true) ∧ (s.stop = true → t.stop = true)
    ∧ (s.upc ∉ [Label.r85_1, .r85_16, .r106_1] → t.pos = s.pos)

/-! ### WRITE -/

/-- The lines of WRITE that are neither waits nor returns: the zero test, the entry, the start request, the address
byte, the clearing pair, the loop, the stop request (R95, R96, and R67 to R69 inlined; a data byte or a stop request
with ADDR held stops: R130).  The address byte carries `x[d]`, which is write from R95.2 on.  What is the model's
own: `startDue` and `addrSent` (log 9), the address-clear latch (log 10). -/
def Obligations.WriteLines : Prop :=
  ∀ (a : Byte) (n : Count) (p : List Byte) (s : State),
    (s.standsAt .write .r95_1 → s.n = 0 → exec (.write a n p) s = .next { s with
      k := 0, status := 3, site := 0, fsm := .idle, upc := .idle, trace := s.trace ++ [.done 3 0] })
    ∧ (s.standsAt .write .r95_1 → s.n ≠ 0 → exec (.write a n p) s = .next { s with upc := .r95_2 })
    ∧ (s.standsAt .write .r95_2 → exec (.write a n p) s = .next { s with
      idx := 0, d := .write, upc := .r67_1 })
    ∧ (s.standsAt .write .r67_1 → exec (.write a n p) s = .next { s with
      start := true, startDue := true, s1Latch := false, upc := .r67_2, trace := s.trace ++ [.cw .start true] })
    ∧ (s.standsAt .write .r68_2 → (addrHeld s = false ∨ s.startDue = true) →
      exec (.write a n p) s = .next { s with
        tx := s.tx ++ [addrByte s.cfg.addrForm s.a s.d],
        addrSent := s.addrSent || s.startDue, startDue := false, s1Latch := false, upc := .r68_3,
        trace := s.trace ++ [.dw (addrByte s.cfg.addrForm s.a s.d)] })
    ∧ (s.standsAt .write .r69_1 → exec (.write a n p) s = .next { s with
      s1Latch := true, upc := .r69_2, trace := s.trace ++ [.s1 s.stat1] })
    ∧ (s.standsAt .write .r69_2 → exec (.write a n p) s = .next { s with
      stat1 := if s.s1Latch && addrOf s.cfg.layout s.stat1 then s.stat1Cleared else s.stat1,
      addrSent := if s.s1Latch && addrOf s.cfg.layout s.stat1 then false else s.addrSent,
      s1Latch := false, upc := .r95_3, trace := s.trace ++ [.s2 s.stat2] })
    ∧ (s.standsAt .write .r95_3 → s.idx.toNat < s.n.toNat →
      exec (.write a n p) s = .next { s with upc := .r95_4 })
    ∧ (s.standsAt .write .r95_3 → s.n.toNat ≤ s.idx.toNat →
      exec (.write a n p) s = .next { s with upc := .r95_7 })
    ∧ (∀ v : Byte, s.standsAt .write .r95_4 → s.pl[s.idx.toNat]? = some v → addrHeld s = false →
      exec (.write a n p) s = .next { s with
        tx := s.tx ++ [v], addrSent := s.addrSent || s.startDue, startDue := false, s1Latch := false,
        upc := .r95_5, trace := s.trace ++ [.dw v] })
    ∧ (s.standsAt .write .r95_4 → addrHeld s = true → exec (.write a n p) s = .fault .addrNotCleared)
    ∧ (s.standsAt .write .r95_6 → exec (.write a n p) s = .next { s with idx := s.idx + 1, upc := .r95_3 })
    ∧ (s.standsAt .write .r95_7 → addrHeld s = false → exec (.write a n p) s = .next { s with
      stop := true, s1Latch := false, upc := .r95_8, trace := s.trace ++ [.cw .stop true] })
    ∧ (s.standsAt .write .r95_7 → addrHeld s = true → exec (.write a n p) s = .fault .addrNotCleared)

/-- WRITE of a payload of any length from 1 to 65535, the controller answering every poll at once and
clearing STOP before it is polled: start, address, clearing, the payload in list order, stop, for a STAT1 that shows
every flag all along, and from a legal launch with ADDR 0, the controller raising ADDR after the address byte (R42,
R95, R98, R128, V14, V15; the controller's moves: log 2; what a legal launch is:
log 13; latches: log 9, log 10). -/
def Obligations.WriteCompletes : Prop :=
  (∀ (s : State) (a : Byte) (n : Count) (p rest : List Byte),
    p.length = n.toNat → 1 ≤ n.toNat →
    s.agenda = List.replicate (4 * n.toNat + 12) .sequencer ++ [.clearStop] →
    s.fsm = .idle → s.upc = .idle →
    s.cmd = encode (.write a n p) ++ rest → s.cfg.wf = true → s.answersAtOnce = true →
    Sys2Proof.core.run (4 * n.toNat + 15) s = .next { s with
      agenda := [], cmd := rest, op := 0x9, a := a, d := .write, n := n, pl := p, k := 0, idx := n,
      start := true, stop := false, stat1 := s.stat1Cleared, startDue := false, addrSent := false,
      s1Latch := false, tx := s.tx ++ [addrByte s.cfg.addrForm a .write] ++ p, status := 0, site := 0,
      trace := s.trace ++ [.cw .start true, .s2 s.stat2, .s1 s.stat1,
          .dw (addrByte s.cfg.addrForm a .write), .s1 s.stat1, .s1 s.stat1, .s2 s.stat2]
        ++ p.flatMap (fun b => [.dw b, .s1 s.stat1Cleared])
        ++ [.cw .stop true, .cr .stop false, .done 0 0] })
  ∧ (∀ (s : State) (a : Byte) (n : Count) (p rest : List Byte) (w : Word),
    p.length = n.toNat → 1 ≤ n.toNat →
    s.agenda = List.replicate 7 .sequencer ++ [.stat1 w] ++ List.replicate (4 * n.toNat + 5) .sequencer
      ++ [.clearStop] →
    s.fsm = .idle → s.upc = .idle →
    s.cmd = encode (.write a n p) ++ rest → s.cfg.wf = true → s.answersFromLaunch w = true →
    Sys2Proof.core.run (4 * n.toNat + 16) s = .next { s with
      agenda := [], cmd := rest, op := 0x9, a := a, d := .write, n := n, pl := p, k := 0, idx := n,
      start := true, stop := false, stat1 := withoutAddr s.cfg.layout w, startDue := false, addrSent := false,
      s1Latch := false, tx := s.tx ++ [addrByte s.cfg.addrForm a .write] ++ p, status := 0, site := 0,
      trace := s.trace ++ [.cw .start true, .s2 s.stat2, .s1 s.stat1,
          .dw (addrByte s.cfg.addrForm a .write), .s1 w, .s1 w, .s2 s.stat2]
        ++ p.flatMap (fun b => [.dw b, .s1 (withoutAddr s.cfg.layout w)])
        ++ [.cw .stop true, .cr .stop false, .done 0 0] })

/-- WRITE changes no more than what R95 lists and what its accesses do in the controller; ACK, POS, IM
and the Byte Sink keep their values and DATA is not read (R95, R97). -/
def Obligations.WriteFrame : Prop :=
  ∀ (a : Byte) (n : Count) (p : List Byte) (s t : State), s.fsm = .run → exec (.write a n p) s = .next t →
    t = { s with
      fsm := t.fsm, upc := t.upc, status := t.status, site := t.site, d := t.d, idx := t.idx, k := t.k,
      raising := t.raising, start := t.start, stop := t.stop, stat1 := t.stat1,
      startDue := t.startDue, addrSent := t.addrSent, s1Latch := t.s1Latch, tx := t.tx, trace := t.trace }
    ∧ (s.start = true → t.start = true) ∧ (s.stop = true → t.stop = true)

/-- What each primitive command changes, and that it changes nothing else (R67 to R71, R74).  A poll of
STAT2 by GEN_START changes nothing of ADDR: the latch is 0 there (R67 b), a clause of `addrInv`. -/
def Obligations.PrimitiveFrames : Prop :=
  ∀ (s t : State), s.fsm = .run →
    ((s.upc = .r67_2 → s.s1Latch = false) → exec .genStart s = .next t → t = { s with
      fsm := t.fsm, upc := t.upc, status := t.status, site := t.site, k := t.k, raising := t.raising,
      start := t.start, startDue := t.startDue, s1Latch := t.s1Latch, trace := t.trace })
    ∧ (∀ (a : Byte) (d : Dir), exec (.sendAddr a d) s = .next t → t = { s with
      fsm := t.fsm, upc := t.upc, status := t.status, site := t.site, k := t.k, raising := t.raising,
      tx := t.tx, startDue := t.startDue, addrSent := t.addrSent, s1Latch := t.s1Latch, trace := t.trace })
    ∧ (exec .clrAddr s = .next t → t = { s with
      fsm := t.fsm, upc := t.upc, status := t.status, site := t.site, stat1 := t.stat1,
      addrSent := t.addrSent, s1Latch := t.s1Latch, trace := t.trace })
    ∧ (∀ v : Byte, exec (.writeByte v) s = .next t → t = { s with
      fsm := t.fsm, upc := t.upc, status := t.status, site := t.site, k := t.k, raising := t.raising,
      tx := t.tx, startDue := t.startDue, addrSent := t.addrSent, s1Latch := t.s1Latch, trace := t.trace })
    ∧ (exec .genStop s = .next t → t = { s with
      fsm := t.fsm, upc := t.upc, status := t.status, site := t.site, k := t.k, raising := t.raising,
      stop := t.stop, s1Latch := t.s1Latch, trace := t.trace })

/-! ### Errors -/

/-- READ of more bytes than SINK_CAP ends with OverflowRequest, the DONE its only event, and no other
command ever reports that status: none appends a DONE with it, and none writes it to `status` (R102, R108). -/
def Obligations.OversizedReadOverflows : Prop :=
  (∀ (s : State) (a : Byte) (n : Count) (rest : List Byte),
    s.agenda = [] → s.fsm = .idle → s.upc = .idle → s.cmd = encode (.read a n) ++ rest → n ≠ 0 →
    s.cfg.sinkCap < n.toNat →
    Sys2Proof.core.run 3 s = .next { s with
      cmd := rest, op := 0x8, a := a, d := .read, n := n, pl := [], k := 0, status := 1, site := 0,
      trace := s.trace ++ [.done 1 0] })
  ∧ (∀ (i : Instr) (s t : State), i.mnemonic ≠ .read → exec i s = .next t →
    (∀ (es : List Event) (site : BitVec 4), t.trace = s.trace ++ es → Event.done 1 site ∉ es)
    ∧ (t.status = 1 → s.status = 1))

/-- Requests out of the domain end with InvalidRequest, the DONE their only event: READ and WRITE with
a zero count, and an illegal word (R96, R105, R108). -/
def Obligations.InvalidRequests : Prop :=
  ∀ (s : State) (rest : List Byte), s.agenda = [] → s.fsm = .idle → s.upc = .idle →
    (∀ a : Byte, s.cmd = encode (.read a 0) ++ rest → ∃ t : State, Sys2Proof.core.run 2 s = .next t
      ∧ t.status = 3 ∧ t.site = 0 ∧ t.fsm = .idle ∧ t.trace = s.trace ++ [.done 3 0])
    ∧ (∀ a : Byte, s.cmd = encode (.write a 0 []) ++ rest → ∃ t : State, Sys2Proof.core.run 2 s = .next t
      ∧ t.status = 3 ∧ t.site = 0 ∧ t.fsm = .idle ∧ t.trace = s.trace ++ [.done 3 0])
    ∧ (∀ (w : CmdWord) (why : IllegalWord), s.cmd = CmdWord.bytes w ++ rest → decodeWord w = .error why →
      ∃ (j : Nat) (t : State), Sys2Proof.core.run j s = .next t
        ∧ t.status = 3 ∧ t.site = 0 ∧ t.fsm = .idle ∧ t.trace = s.trace ++ [.done 3 0])

/-- The end of a command whose wait fails for the last time: for READ of two bytes `CW(POS,0)` and
`CW(ACK,1)`, for any other READ `CW(ACK,1)`, for another command nothing; then `DONE(2, site)`.  START,
STOP, the sink and `x[rem]` stay as they are, and ADDR is what it was before the last poll, the poll of
a half-done pair apart (R104, R106).  Clauses that are the model's own: `raising` (log 20); `startDue`,
`addrSent` and what the last poll leaves of a half-done pair (log 9, log 10). -/
def Obligations.TimeoutCleansUp : Prop :=
  ∀ (i : Instr) (s : State) (w : Site) (l : Label) (B : Nat),
    s.standsAt i.mnemonic s.upc → lineOf i.mnemonic s.upc = some (.wait w l) → s.agenda = [] →
    (w.dataPhase = true → addrHeld s = false) → w.awaited s = false → s.cfg.pollBound = some B →
    B ≤ s.k + 1 →
    ∃ (j : Nat) (t : State), Sys2Proof.core.run j s = .next t
      ∧ t.fsm = .idle ∧ t.upc = .idle ∧ t.k = 0 ∧ t.raising = none ∧ t.status = 2 ∧ t.site = w.number
      ∧ t.start = s.start ∧ t.stop = s.stop ∧ t.im = s.im ∧ (s.maskInv → t.im = false)
      ∧ t.sink = s.sink ∧ t.rem = s.rem
      ∧ t.stat1 = (pollOnce w s).stat1 ∧ t.addrSent = (pollOnce w s).addrSent ∧ t.startDue = s.startDue
      ∧ (i.mnemonic = .read → s.n = 2 → t.pos = false ∧ t.ack = true
        ∧ t.trace = s.trace ++ [w.pollEvent s, .cw .pos false, .cw .ack true, .done 2 w.number])
      ∧ (i.mnemonic = .read → s.n ≠ 2 → t.pos = s.pos ∧ t.ack = true
        ∧ t.trace = s.trace ++ [w.pollEvent s, .cw .ack true, .done 2 w.number])
      ∧ (i.mnemonic ≠ .read → t.pos = s.pos ∧ t.ack = s.ack
        ∧ t.trace = s.trace ++ [w.pollEvent s, .done 2 w.number])

/-- `status` and `site` are written at a DONE, with what the DONE reports, and keep their values
otherwise; what they hold is a result of R62 (R16, R62). -/
def Obligations.ResultWrittenAtDone : Prop :=
  ∀ (i : Instr) (s t : State), exec i s = .next t →
    (t.trace = s.trace ++ [.done t.status t.site] ∧ t.resultInv)
    ∨ (t.status = s.status ∧ t.site = s.site
      ∧ ∃ es : List Event, t.trace = s.trace ++ es ∧ ∀ e ∈ es, e.isDone = false)

/-- Every command ends with ACK 1, POS 0 and IM 0, success or error (R21, R90, R106, R113, R114). -/
def Obligations.EndRestoresModes : Prop :=
  ∀ (i : Instr) (s t : State), s.Inv → s.ackInv → s.fsm = .run → exec i s = .next t → t.fsm = .idle →
    t.ack = true ∧ t.pos = false ∧ t.im = false

/-! ### Invariants -/

/-- Every step keeps the invariant, whoever moves: run state, label and command agree; IM is 1 exactly
inside a masked window; the counts of a transaction; the poll counter; ADDR held from the address phase to
its clearing; the result registers; the sink's bound (R13, R14, R22, R40, R42, R62, R65, R82, R95, R111, R113,
R130).  Clauses that are the model's own: `startDue`, `addrSent` and that ADDR cannot rise again after its
clearing (log 9), `s1Latch` (log 10), `raising` (log 20), `x[k]` and its bound (log 24). -/
def Obligations.StepKeepsInv : Prop :=
  ∀ s t : State, s.Inv → step s = .next t → t.Inv

/-- The reset state satisfies the invariants.  What R25 states of it is idle, IM 0, status 0, site 0; the clauses about
counts, polls, ACK, POS, the address phase and the sink rest on values the model chose where R25 leaves them
unspecified, unconstrained, or required at the first command only (log 4, log 5, log 6, log 7). -/
def Obligations.ResetSatisfiesInv : Prop :=
  State.reset.Inv ∧ State.reset.ackInv ∧ State.reset.traceInv ∧ State.reset.roomInv

/-- ACK and POS follow the line of the command in flight, unless another master writes CTRL or the
sequencer is reset (R21, R84 to R86, R106, R134). -/
def Obligations.StepKeepsAckInv : Prop :=
  ∀ s t : State, s.Inv → s.ackInv →
    (∀ m, s.agenda.head? = some m → m ≠ .reset ∧ ∀ f b, m ≠ .foreign (.ctlWrite f b)) →
    step s = .next t → t.ackInv

/-- A READ has pushed exactly the bytes it has read, in order, but for the one in `x[rxb]`, and N of them
with those still to come; no other command reads DATA or pushes (R33, R74, R82, R92, R95).  A reset of the
sequencer is left out: it abandons a READ with no DONE, so that the events of the abandoned READ stand in the trace
before those of the next command (R126). -/
def Obligations.StepKeepsTraceInv : Prop :=
  ∀ s t : State, s.Inv → s.traceInv → s.agenda.head? ≠ some .reset → step s = .next t → t.traceInv

/-- From a state that satisfies the invariant the machine goes on, but for three stops: a data-phase action of a
primitive before ADDR is cleared, a push onto a full sink, a foreign access while a command runs.  READ and
WRITE never meet the first (R130 "by construction"; R119, R120; what raises ADDR: log 9). -/
def Obligations.StepProgress : Prop :=
  ∀ s : State, s.Inv →
    (∃ t : State, step s = .next t)
    ∨ (step s = .fault .addrNotCleared ∧ s.fsm = .run
      ∧ (s.op = Mnemonic.writeByte.op ∨ s.op = Mnemonic.genStop.op
        ∨ (s.op = Mnemonic.sendAddr.op ∧ s.startDue = false)))
    ∨ (step s = .fault .sinkOverrun ∧ s.fsm = .run ∧ s.op = Mnemonic.read.op
      ∧ s.cfg.sinkCap ≤ s.sink.length)
    ∨ (step s = .refused .foreignAccess ∧ s.fsm = .run ∧ ∃ x, s.agenda.head? = some (.foreign x))

/-- A command in flight always has a next state, whatever its line, when the sink has room for a READ
and ADDR is cleared for the two data-phase primitives and for a SEND_ADDR that follows no start (R13, R130, R136;
log 9). -/
def Obligations.EveryCommandAdvances : Prop :=
  ∀ (i : Instr) (s : State), s.Inv → s.fsm = .run → s.op = i.mnemonic.op →
    (i.mnemonic = .read → s.sink.length < s.cfg.sinkCap) →
    (i.mnemonic = .writeByte ∨ i.mnemonic = .genStop → addrHeld s = false) →
    (i.mnemonic = .sendAddr → s.startDue = false → addrHeld s = false) →
    ∃ t : State, exec i s = .next t ∧ t.op = s.op ∧ t.a = s.a ∧ t.n = s.n ∧ t.pl = s.pl

/-- With room for N bytes when it is launched, a READ never overruns the sink, whatever the consumer
does (R120, R128, R136). -/
def Obligations.RoomAtLaunchPreventsOverrun : Prop :=
  (∀ (a : Byte) (n : Count) (s t : State), s.fsm = .idle → s.sinkRoom n.toNat = true →
    exec (.read a n) s = .next t → t.roomInv)
  ∧ (∀ s t : State, s.Inv → s.roomInv → s.fsm = .run → step s = .next t → t.roomInv)
  ∧ (∀ s : State, s.Inv → s.roomInv → step s ≠ .fault .sinkOverrun)

/-! ### Rules about the whole machine -/

/-- The descriptor is constant while a command runs (R12). -/
def Obligations.DescriptorConstantWhileRunning : Prop :=
  ∀ s t : State, s.Inv → s.fsm = .run → t.fsm = .run → step s = .next t →
    t.op = s.op ∧ t.a = s.a ∧ t.d = s.d ∧ t.n = s.n ∧ t.pl = s.pl

/-- While IM is 1 no handler runs, and no pending request is lost; while IM is 0 the handler of a
pending request can run between any two steps.  A request that arrives, whatever IM is, is pending afterwards,
and nothing else changes (R109, R110; what a handler does to the rest of the machine, and a request already
pending: log 15). -/
def Obligations.HandlersHeldOffWhileMasked : Prop :=
  (∀ (s t : State) (n : Nat), step s = .next t → t.trace = s.trace ++ [.handler n] → s.im = false)
  ∧ (∀ s t : State, s.im = true → step s = .next t → ∀ n ∈ s.pending, n ∈ t.pending)
  ∧ (∀ (s : State) (n : Nat) (rest : List Move), s.agenda = .irqHandler n :: rest → s.im = false →
    n ∈ s.pending → step s = .next { s with
      agenda := rest, pending := s.pending.erase n, trace := s.trace ++ [.handler n] })
  ∧ (∀ (s : State) (n : Nat) (rest : List Move), s.agenda = .irqRequest n :: rest →
    ∃ t : State, step s = .next t ∧ n ∈ t.pending ∧ (∀ m ∈ s.pending, m ∈ t.pending)
      ∧ t = { s with agenda := rest, pending := if n ∈ s.pending then s.pending else s.pending ++ [n] })

/-- Only IrqMask writes 1 to IM and only IrqUnmask writes 0, and no line of a masked window is a wait or
can raise (R15, R111, R113). -/
def Obligations.MaskLinesAndWindows : Prop :=
  (∀ (i : Instr) (s t : State), exec i s = .next t → t.im ≠ s.im →
    t.trace = s.trace ++ [.im t.im]
    ∧ ∃ l, lineOf i.mnemonic s.upc = some (if t.im then Line.irqMask l else Line.irqUnmask l))
  ∧ (∀ (m : Mnemonic) (s : State) (ln : Line), s.Inv → s.standsAt m s.upc → s.im = true →
    lineOf m s.upc = some ln →
      (∀ w l, ln ≠ .wait w l) ∧ ln ≠ .ret ∧ ln ≠ .endTimeout
      ∧ (∀ l, ln ≠ .requireCount l ∧ ln ≠ .requireCapacity l))

/-- Under WINDOW_TIMELY the controller completes no byte inside a masked window: BTF and RXNE do not
change, no byte is received and none is sent (R6, R112; which gaps and which moves those are: log 14). -/
def Obligations.WindowTimelyHoldsControllerOff : Prop :=
  ∀ s t : State, s.Inv → s.cfg.wf = true → s.cfg.windowTimely = true → s.upc.insideWindow = true →
    step s = .next t →
      btfOf t.cfg.layout t.stat1 = btfOf s.cfg.layout s.stat1
      ∧ rxneOf t.cfg.layout t.stat1 = rxneOf s.cfg.layout s.stat1
      ∧ (∃ drained : List Byte, s.rx = drained ++ t.rx)
      ∧ t.tx = s.tx

/-- The sequencer never reads the sink, the pending requests or the command port while it runs: what it
does is the same whatever they hold, as long as the sink has room for what it pushes (R22, R49, R110). -/
def Obligations.SequencerReadsNeitherSinkNorPending : Prop :=
  ∀ (i : Instr) (s t : State), exec i s = .next t →
    ∃ pushed : List Byte, t.sink = s.sink ++ pushed
      ∧ ∀ (k : List Byte) (p : List Nat) (c : List Byte), k.length + pushed.length ≤ s.cfg.sinkCap →
        exec i { s with sink := k, pending := p, cmd := c }
          = .next { t with sink := k ++ pushed, pending := p, cmd := c }

/-- Reset puts group S to its values and produces no event, abandons a command without DONE and without
clean-up, and leaves the controller, the sink and the platform as they were (R125, R126, R127). -/
def Obligations.ResetAbandonsCommand : Prop :=
  ∀ (s : State) (rest : List Move), s.agenda = .reset :: rest →
    ∃ t : State, step s = .next t
      ∧ t.fsm = .idle ∧ t.upc = .idle ∧ t.im = false ∧ t.status = 0 ∧ t.site = 0
      ∧ t.trace = s.trace ∧ t.agenda = rest
      ∧ t.pe = s.pe ∧ t.ack = s.ack ∧ t.start = s.start ∧ t.stop = s.stop ∧ t.pos = s.pos
      ∧ t.stat1 = s.stat1 ∧ t.stat2 = s.stat2 ∧ t.rx = s.rx ∧ t.tx = s.tx
      ∧ t.s1Latch = s.s1Latch ∧ t.startDue = s.startDue ∧ t.addrSent = s.addrSent
      ∧ t.sink = s.sink ∧ t.pending = s.pending ∧ t.cmd = s.cmd ∧ t.cfg = s.cfg

/-- Another master of the Register Interface is refused while a command runs; while the sequencer is idle
its access produces no event and leaves group S, the sink and the pending requests alone (R119, R134, U3;
log 16). -/
def Obligations.ForeignAccessRefusedWhileRunning : Prop :=
  ∀ (s : State) (x : ForeignAccess) (rest : List Move), s.agenda = .foreign x :: rest →
    (s.fsm = .run → step s = .refused .foreignAccess)
    ∧ (s.fsm = .idle → ∃ t : State, step s = .next t ∧ t = { s with
      agenda := rest, pe := t.pe, ack := t.ack, start := t.start, stop := t.stop, pos := t.pos,
      stat1 := t.stat1, rx := t.rx, tx := t.tx, s1Latch := t.s1Latch, startDue := t.startDue,
      addrSent := t.addrSent, draws := t.draws })

end
end

