-- ==== Sys2Proof/Laws/State.lean ====
section
/-! SUPPORT. One lemma per field per named update of State, true by rfl. -/

namespace Sys2Proof.Machine

variable (s : State)

/-! ### `State.log` -/

@[simp] theorem State.log_fsm (e : Event) : (s.log e).fsm = s.fsm := rfl
@[simp] theorem State.log_upc (e : Event) : (s.log e).upc = s.upc := rfl
@[simp] theorem State.log_im (e : Event) : (s.log e).im = s.im := rfl
@[simp] theorem State.log_status (e : Event) : (s.log e).status = s.status := rfl
@[simp] theorem State.log_site (e : Event) : (s.log e).site = s.site := rfl
@[simp] theorem State.log_op (e : Event) : (s.log e).op = s.op := rfl
@[simp] theorem State.log_a (e : Event) : (s.log e).a = s.a := rfl
@[simp] theorem State.log_d (e : Event) : (s.log e).d = s.d := rfl
@[simp] theorem State.log_n (e : Event) : (s.log e).n = s.n := rfl
@[simp] theorem State.log_rem (e : Event) : (s.log e).rem = s.rem := rfl
@[simp] theorem State.log_idx (e : Event) : (s.log e).idx = s.idx := rfl
@[simp] theorem State.log_rxb (e : Event) : (s.log e).rxb = s.rxb := rfl
@[simp] theorem State.log_k (e : Event) : (s.log e).k = s.k := rfl
@[simp] theorem State.log_pl (e : Event) : (s.log e).pl = s.pl := rfl
@[simp] theorem State.log_pe (e : Event) : (s.log e).pe = s.pe := rfl
@[simp] theorem State.log_ack (e : Event) : (s.log e).ack = s.ack := rfl
@[simp] theorem State.log_start (e : Event) : (s.log e).start = s.start := rfl
@[simp] theorem State.log_stop (e : Event) : (s.log e).stop = s.stop := rfl
@[simp] theorem State.log_pos (e : Event) : (s.log e).pos = s.pos := rfl
@[simp] theorem State.log_stat1 (e : Event) : (s.log e).stat1 = s.stat1 := rfl
@[simp] theorem State.log_stat2 (e : Event) : (s.log e).stat2 = s.stat2 := rfl
@[simp] theorem State.log_rx (e : Event) : (s.log e).rx = s.rx := rfl
@[simp] theorem State.log_tx (e : Event) : (s.log e).tx = s.tx := rfl
@[simp] theorem State.log_s1Latch (e : Event) : (s.log e).s1Latch = s.s1Latch := rfl
@[simp] theorem State.log_startDue (e : Event) : (s.log e).startDue = s.startDue := rfl
@[simp] theorem State.log_addrSent (e : Event) : (s.log e).addrSent = s.addrSent := rfl
@[simp] theorem State.log_sink (e : Event) : (s.log e).sink = s.sink := rfl
@[simp] theorem State.log_pending (e : Event) : (s.log e).pending = s.pending := rfl
@[simp] theorem State.log_cmd (e : Event) : (s.log e).cmd = s.cmd := rfl
@[simp] theorem State.log_cfg (e : Event) : (s.log e).cfg = s.cfg := rfl
@[simp] theorem State.log_raising (e : Event) : (s.log e).raising = s.raising := rfl
@[simp] theorem State.log_draws (e : Event) : (s.log e).draws = s.draws := rfl
@[simp] theorem State.log_agenda (e : Event) : (s.log e).agenda = s.agenda := rfl
@[simp] theorem State.log_trace (e : Event) : (s.log e).trace = s.trace ++ [e] := rfl

/-! ### `State.goto` -/

@[simp] theorem State.goto_fsm (l : Label) : (s.goto l).fsm = s.fsm := rfl
@[simp] theorem State.goto_upc (l : Label) : (s.goto l).upc = l := rfl
@[simp] theorem State.goto_im (l : Label) : (s.goto l).im = s.im := rfl
@[simp] theorem State.goto_status (l : Label) : (s.goto l).status = s.status := rfl
@[simp] theorem State.goto_site (l : Label) : (s.goto l).site = s.site := rfl
@[simp] theorem State.goto_op (l : Label) : (s.goto l).op = s.op := rfl
@[simp] theorem State.goto_a (l : Label) : (s.goto l).a = s.a := rfl
@[simp] theorem State.goto_d (l : Label) : (s.goto l).d = s.d := rfl
@[simp] theorem State.goto_n (l : Label) : (s.goto l).n = s.n := rfl
@[simp] theorem State.goto_rem (l : Label) : (s.goto l).rem = s.rem := rfl
@[simp] theorem State.goto_idx (l : Label) : (s.goto l).idx = s.idx := rfl
@[simp] theorem State.goto_rxb (l : Label) : (s.goto l).rxb = s.rxb := rfl
@[simp] theorem State.goto_k (l : Label) : (s.goto l).k = s.k := rfl
@[simp] theorem State.goto_pl (l : Label) : (s.goto l).pl = s.pl := rfl
@[simp] theorem State.goto_pe (l : Label) : (s.goto l).pe = s.pe := rfl
@[simp] theorem State.goto_ack (l : Label) : (s.goto l).ack = s.ack := rfl
@[simp] theorem State.goto_start (l : Label) : (s.goto l).start = s.start := rfl
@[simp] theorem State.goto_stop (l : Label) : (s.goto l).stop = s.stop := rfl
@[simp] theorem State.goto_pos (l : Label) : (s.goto l).pos = s.pos := rfl
@[simp] theorem State.goto_stat1 (l : Label) : (s.goto l).stat1 = s.stat1 := rfl
@[simp] theorem State.goto_stat2 (l : Label) : (s.goto l).stat2 = s.stat2 := rfl
@[simp] theorem State.goto_rx (l : Label) : (s.goto l).rx = s.rx := rfl
@[simp] theorem State.goto_tx (l : Label) : (s.goto l).tx = s.tx := rfl
@[simp] theorem State.goto_s1Latch (l : Label) : (s.goto l).s1Latch = s.s1Latch := rfl
@[simp] theorem State.goto_startDue (l : Label) : (s.goto l).startDue = s.startDue := rfl
@[simp] theorem State.goto_addrSent (l : Label) : (s.goto l).addrSent = s.addrSent := rfl
@[simp] theorem State.goto_sink (l : Label) : (s.goto l).sink = s.sink := rfl
@[simp] theorem State.goto_pending (l : Label) : (s.goto l).pending = s.pending := rfl
@[simp] theorem State.goto_cmd (l : Label) : (s.goto l).cmd = s.cmd := rfl
@[simp] theorem State.goto_cfg (l : Label) : (s.goto l).cfg = s.cfg := rfl
@[simp] theorem State.goto_raising (l : Label) : (s.goto l).raising = s.raising := rfl
@[simp] theorem State.goto_draws (l : Label) : (s.goto l).draws = s.draws := rfl
@[simp] theorem State.goto_agenda (l : Label) : (s.goto l).agenda = s.agenda := rfl
@[simp] theorem State.goto_trace (l : Label) : (s.goto l).trace = s.trace := rfl

/-! ### `State.setK` -/

@[simp] theorem State.setK_fsm (k : Nat) : (s.setK k).fsm = s.fsm := rfl
@[simp] theorem State.setK_upc (k : Nat) : (s.setK k).upc = s.upc := rfl
@[simp] theorem State.setK_im (k : Nat) : (s.setK k).im = s.im := rfl
@[simp] theorem State.setK_status (k : Nat) : (s.setK k).status = s.status := rfl
@[simp] theorem State.setK_site (k : Nat) : (s.setK k).site = s.site := rfl
@[simp] theorem State.setK_op (k : Nat) : (s.setK k).op = s.op := rfl
@[simp] theorem State.setK_a (k : Nat) : (s.setK k).a = s.a := rfl
@[simp] theorem State.setK_d (k : Nat) : (s.setK k).d = s.d := rfl
@[simp] theorem State.setK_n (k : Nat) : (s.setK k).n = s.n := rfl
@[simp] theorem State.setK_rem (k : Nat) : (s.setK k).rem = s.rem := rfl
@[simp] theorem State.setK_idx (k : Nat) : (s.setK k).idx = s.idx := rfl
@[simp] theorem State.setK_rxb (k : Nat) : (s.setK k).rxb = s.rxb := rfl
@[simp] theorem State.setK_k (k : Nat) : (s.setK k).k = k := rfl
@[simp] theorem State.setK_pl (k : Nat) : (s.setK k).pl = s.pl := rfl
@[simp] theorem State.setK_pe (k : Nat) : (s.setK k).pe = s.pe := rfl
@[simp] theorem State.setK_ack (k : Nat) : (s.setK k).ack = s.ack := rfl
@[simp] theorem State.setK_start (k : Nat) : (s.setK k).start = s.start := rfl
@[simp] theorem State.setK_stop (k : Nat) : (s.setK k).stop = s.stop := rfl
@[simp] theorem State.setK_pos (k : Nat) : (s.setK k).pos = s.pos := rfl
@[simp] theorem State.setK_stat1 (k : Nat) : (s.setK k).stat1 = s.stat1 := rfl
@[simp] theorem State.setK_stat2 (k : Nat) : (s.setK k).stat2 = s.stat2 := rfl
@[simp] theorem State.setK_rx (k : Nat) : (s.setK k).rx = s.rx := rfl
@[simp] theorem State.setK_tx (k : Nat) : (s.setK k).tx = s.tx := rfl
@[simp] theorem State.setK_s1Latch (k : Nat) : (s.setK k).s1Latch = s.s1Latch := rfl
@[simp] theorem State.setK_startDue (k : Nat) : (s.setK k).startDue = s.startDue := rfl
@[simp] theorem State.setK_addrSent (k : Nat) : (s.setK k).addrSent = s.addrSent := rfl
@[simp] theorem State.setK_sink (k : Nat) : (s.setK k).sink = s.sink := rfl
@[simp] theorem State.setK_pending (k : Nat) : (s.setK k).pending = s.pending := rfl
@[simp] theorem State.setK_cmd (k : Nat) : (s.setK k).cmd = s.cmd := rfl
@[simp] theorem State.setK_cfg (k : Nat) : (s.setK k).cfg = s.cfg := rfl
@[simp] theorem State.setK_raising (k : Nat) : (s.setK k).raising = s.raising := rfl
@[simp] theorem State.setK_draws (k : Nat) : (s.setK k).draws = s.draws := rfl
@[simp] theorem State.setK_agenda (k : Nat) : (s.setK k).agenda = s.agenda := rfl
@[simp] theorem State.setK_trace (k : Nat) : (s.setK k).trace = s.trace := rfl

/-! ### `State.setRaising` -/

@[simp] theorem State.setRaising_fsm (r : Option Site) : (s.setRaising r).fsm = s.fsm := rfl
@[simp] theorem State.setRaising_upc (r : Option Site) : (s.setRaising r).upc = s.upc := rfl
@[simp] theorem State.setRaising_im (r : Option Site) : (s.setRaising r).im = s.im := rfl
@[simp] theorem State.setRaising_status (r : Option Site) : (s.setRaising r).status = s.status := rfl
@[simp] theorem State.setRaising_site (r : Option Site) : (s.setRaising r).site = s.site := rfl
@[simp] theorem State.setRaising_op (r : Option Site) : (s.setRaising r).op = s.op := rfl
@[simp] theorem State.setRaising_a (r : Option Site) : (s.setRaising r).a = s.a := rfl
@[simp] theorem State.setRaising_d (r : Option Site) : (s.setRaising r).d = s.d := rfl
@[simp] theorem State.setRaising_n (r : Option Site) : (s.setRaising r).n = s.n := rfl
@[simp] theorem State.setRaising_rem (r : Option Site) : (s.setRaising r).rem = s.rem := rfl
@[simp] theorem State.setRaising_idx (r : Option Site) : (s.setRaising r).idx = s.idx := rfl
@[simp] theorem State.setRaising_rxb (r : Option Site) : (s.setRaising r).rxb = s.rxb := rfl
@[simp] theorem State.setRaising_k (r : Option Site) : (s.setRaising r).k = s.k := rfl
@[simp] theorem State.setRaising_pl (r : Option Site) : (s.setRaising r).pl = s.pl := rfl
@[simp] theorem State.setRaising_pe (r : Option Site) : (s.setRaising r).pe = s.pe := rfl
@[simp] theorem State.setRaising_ack (r : Option Site) : (s.setRaising r).ack = s.ack := rfl
@[simp] theorem State.setRaising_start (r : Option Site) : (s.setRaising r).start = s.start := rfl
@[simp] theorem State.setRaising_stop (r : Option Site) : (s.setRaising r).stop = s.stop := rfl
@[simp] theorem State.setRaising_pos (r : Option Site) : (s.setRaising r).pos = s.pos := rfl
@[simp] theorem State.setRaising_stat1 (r : Option Site) : (s.setRaising r).stat1 = s.stat1 := rfl
@[simp] theorem State.setRaising_stat2 (r : Option Site) : (s.setRaising r).stat2 = s.stat2 := rfl
@[simp] theorem State.setRaising_rx (r : Option Site) : (s.setRaising r).rx = s.rx := rfl
@[simp] theorem State.setRaising_tx (r : Option Site) : (s.setRaising r).tx = s.tx := rfl
@[simp] theorem State.setRaising_s1Latch (r : Option Site) : (s.setRaising r).s1Latch = s.s1Latch := rfl
@[simp] theorem State.setRaising_startDue (r : Option Site) : (s.setRaising r).startDue = s.startDue := rfl
@[simp] theorem State.setRaising_addrSent (r : Option Site) : (s.setRaising r).addrSent = s.addrSent := rfl
@[simp] theorem State.setRaising_sink (r : Option Site) : (s.setRaising r).sink = s.sink := rfl
@[simp] theorem State.setRaising_pending (r : Option Site) : (s.setRaising r).pending = s.pending := rfl
@[simp] theorem State.setRaising_cmd (r : Option Site) : (s.setRaising r).cmd = s.cmd := rfl
@[simp] theorem State.setRaising_cfg (r : Option Site) : (s.setRaising r).cfg = s.cfg := rfl
@[simp] theorem State.setRaising_raising (r : Option Site) : (s.setRaising r).raising = r := rfl
@[simp] theorem State.setRaising_draws (r : Option Site) : (s.setRaising r).draws = s.draws := rfl
@[simp] theorem State.setRaising_agenda (r : Option Site) : (s.setRaising r).agenda = s.agenda := rfl
@[simp] theorem State.setRaising_trace (r : Option Site) : (s.setRaising r).trace = s.trace := rfl

/-! ### `State.dropLatch` -/

@[simp] theorem State.dropLatch_fsm : (s.dropLatch).fsm = s.fsm := rfl
@[simp] theorem State.dropLatch_upc : (s.dropLatch).upc = s.upc := rfl
@[simp] theorem State.dropLatch_im : (s.dropLatch).im = s.im := rfl
@[simp] theorem State.dropLatch_status : (s.dropLatch).status = s.status := rfl
@[simp] theorem State.dropLatch_site : (s.dropLatch).site = s.site := rfl
@[simp] theorem State.dropLatch_op : (s.dropLatch).op = s.op := rfl
@[simp] theorem State.dropLatch_a : (s.dropLatch).a = s.a := rfl
@[simp] theorem State.dropLatch_d : (s.dropLatch).d = s.d := rfl
@[simp] theorem State.dropLatch_n : (s.dropLatch).n = s.n := rfl
@[simp] theorem State.dropLatch_rem : (s.dropLatch).rem = s.rem := rfl
@[simp] theorem State.dropLatch_idx : (s.dropLatch).idx = s.idx := rfl
@[simp] theorem State.dropLatch_rxb : (s.dropLatch).rxb = s.rxb := rfl
@[simp] theorem State.dropLatch_k : (s.dropLatch).k = s.k := rfl
@[simp] theorem State.dropLatch_pl : (s.dropLatch).pl = s.pl := rfl
@[simp] theorem State.dropLatch_pe : (s.dropLatch).pe = s.pe := rfl
@[simp] theorem State.dropLatch_ack : (s.dropLatch).ack = s.ack := rfl
@[simp] theorem State.dropLatch_start : (s.dropLatch).start = s.start := rfl
@[simp] theorem State.dropLatch_stop : (s.dropLatch).stop = s.stop := rfl
@[simp] theorem State.dropLatch_pos : (s.dropLatch).pos = s.pos := rfl
@[simp] theorem State.dropLatch_stat1 : (s.dropLatch).stat1 = s.stat1 := rfl
@[simp] theorem State.dropLatch_stat2 : (s.dropLatch).stat2 = s.stat2 := rfl
@[simp] theorem State.dropLatch_rx : (s.dropLatch).rx = s.rx := rfl
@[simp] theorem State.dropLatch_tx : (s.dropLatch).tx = s.tx := rfl
@[simp] theorem State.dropLatch_s1Latch : (s.dropLatch).s1Latch = false := rfl
@[simp] theorem State.dropLatch_startDue : (s.dropLatch).startDue = s.startDue := rfl
@[simp] theorem State.dropLatch_addrSent : (s.dropLatch).addrSent = s.addrSent := rfl
@[simp] theorem State.dropLatch_sink : (s.dropLatch).sink = s.sink := rfl
@[simp] theorem State.dropLatch_pending : (s.dropLatch).pending = s.pending := rfl
@[simp] theorem State.dropLatch_cmd : (s.dropLatch).cmd = s.cmd := rfl
@[simp] theorem State.dropLatch_cfg : (s.dropLatch).cfg = s.cfg := rfl
@[simp] theorem State.dropLatch_raising : (s.dropLatch).raising = s.raising := rfl
@[simp] theorem State.dropLatch_draws : (s.dropLatch).draws = s.draws := rfl
@[simp] theorem State.dropLatch_agenda : (s.dropLatch).agenda = s.agenda := rfl
@[simp] theorem State.dropLatch_trace : (s.dropLatch).trace = s.trace := rfl

/-! ### `State.setCtl` -/

@[simp] theorem State.setCtl_fsm (f : CtlField) (b : Bool) : (s.setCtl f b).fsm = s.fsm := by cases f <;> rfl
@[simp] theorem State.setCtl_upc (f : CtlField) (b : Bool) : (s.setCtl f b).upc = s.upc := by cases f <;> rfl
@[simp] theorem State.setCtl_im (f : CtlField) (b : Bool) : (s.setCtl f b).im = s.im := by cases f <;> rfl
@[simp] theorem State.setCtl_status (f : CtlField) (b : Bool) : (s.setCtl f b).status = s.status := by cases f <;> rfl
@[simp] theorem State.setCtl_site (f : CtlField) (b : Bool) : (s.setCtl f b).site = s.site := by cases f <;> rfl
@[simp] theorem State.setCtl_op (f : CtlField) (b : Bool) : (s.setCtl f b).op = s.op := by cases f <;> rfl
@[simp] theorem State.setCtl_a (f : CtlField) (b : Bool) : (s.setCtl f b).a = s.a := by cases f <;> rfl
@[simp] theorem State.setCtl_d (f : CtlField) (b : Bool) : (s.setCtl f b).d = s.d := by cases f <;> rfl
@[simp] theorem State.setCtl_n (f : CtlField) (b : Bool) : (s.setCtl f b).n = s.n := by cases f <;> rfl
@[simp] theorem State.setCtl_rem (f : CtlField) (b : Bool) : (s.setCtl f b).rem = s.rem := by cases f <;> rfl
@[simp] theorem State.setCtl_idx (f : CtlField) (b : Bool) : (s.setCtl f b).idx = s.idx := by cases f <;> rfl
@[simp] theorem State.setCtl_rxb (f : CtlField) (b : Bool) : (s.setCtl f b).rxb = s.rxb := by cases f <;> rfl
@[simp] theorem State.setCtl_k (f : CtlField) (b : Bool) : (s.setCtl f b).k = s.k := by cases f <;> rfl
@[simp] theorem State.setCtl_pl (f : CtlField) (b : Bool) : (s.setCtl f b).pl = s.pl := by cases f <;> rfl
@[simp] theorem State.setCtl_pe (f : CtlField) (b : Bool) :
    (s.setCtl f b).pe = if f = .pe then b else s.pe := by cases f <;> rfl
@[simp] theorem State.setCtl_ack (f : CtlField) (b : Bool) :
    (s.setCtl f b).ack = if f = .ack then b else s.ack := by cases f <;> rfl
@[simp] theorem State.setCtl_start (f : CtlField) (b : Bool) :
    (s.setCtl f b).start = if f = .start then b else s.start := by cases f <;> rfl
@[simp] theorem State.setCtl_stop (f : CtlField) (b : Bool) :
    (s.setCtl f b).stop = if f = .stop then b else s.stop := by cases f <;> rfl
@[simp] theorem State.setCtl_pos (f : CtlField) (b : Bool) :
    (s.setCtl f b).pos = if f = .pos then b else s.pos := by cases f <;> rfl
@[simp] theorem State.setCtl_stat1 (f : CtlField) (b : Bool) : (s.setCtl f b).stat1 = s.stat1 := by cases f <;> rfl
@[simp] theorem State.setCtl_stat2 (f : CtlField) (b : Bool) : (s.setCtl f b).stat2 = s.stat2 := by cases f <;> rfl
@[simp] theorem State.setCtl_rx (f : CtlField) (b : Bool) : (s.setCtl f b).rx = s.rx := by cases f <;> rfl
@[simp] theorem State.setCtl_tx (f : CtlField) (b : Bool) : (s.setCtl f b).tx = s.tx := by cases f <;> rfl
@[simp] theorem State.setCtl_s1Latch (f : CtlField) (b : Bool) : (s.setCtl f b).s1Latch = s.s1Latch := by cases f <;> rfl
@[simp] theorem State.setCtl_startDue (f : CtlField) (b : Bool) : (s.setCtl f b).startDue = s.startDue := by cases f <;> rfl
@[simp] theorem State.setCtl_addrSent (f : CtlField) (b : Bool) : (s.setCtl f b).addrSent = s.addrSent := by cases f <;> rfl
@[simp] theorem State.setCtl_sink (f : CtlField) (b : Bool) : (s.setCtl f b).sink = s.sink := by cases f <;> rfl
@[simp] theorem State.setCtl_pending (f : CtlField) (b : Bool) : (s.setCtl f b).pending = s.pending := by cases f <;> rfl
@[simp] theorem State.setCtl_cmd (f : CtlField) (b : Bool) : (s.setCtl f b).cmd = s.cmd := by cases f <;> rfl
@[simp] theorem State.setCtl_cfg (f : CtlField) (b : Bool) : (s.setCtl f b).cfg = s.cfg := by cases f <;> rfl
@[simp] theorem State.setCtl_raising (f : CtlField) (b : Bool) : (s.setCtl f b).raising = s.raising := by cases f <;> rfl
@[simp] theorem State.setCtl_draws (f : CtlField) (b : Bool) : (s.setCtl f b).draws = s.draws := by cases f <;> rfl
@[simp] theorem State.setCtl_agenda (f : CtlField) (b : Bool) : (s.setCtl f b).agenda = s.agenda := by cases f <;> rfl
@[simp] theorem State.setCtl_trace (f : CtlField) (b : Bool) : (s.setCtl f b).trace = s.trace := by cases f <;> rfl

/-! ### `finish` -/

@[simp] theorem finish_fsm (c : BitVec 3) (w : BitVec 4) : (finish c w s).fsm = .idle := rfl
@[simp] theorem finish_upc (c : BitVec 3) (w : BitVec 4) : (finish c w s).upc = .idle := rfl
@[simp] theorem finish_im (c : BitVec 3) (w : BitVec 4) : (finish c w s).im = s.im := rfl
@[simp] theorem finish_status (c : BitVec 3) (w : BitVec 4) : (finish c w s).status = c := rfl
@[simp] theorem finish_site (c : BitVec 3) (w : BitVec 4) : (finish c w s).site = w := rfl
@[simp] theorem finish_op (c : BitVec 3) (w : BitVec 4) : (finish c w s).op = s.op := rfl
@[simp] theorem finish_a (c : BitVec 3) (w : BitVec 4) : (finish c w s).a = s.a := rfl
@[simp] theorem finish_d (c : BitVec 3) (w : BitVec 4) : (finish c w s).d = s.d := rfl
@[simp] theorem finish_n (c : BitVec 3) (w : BitVec 4) : (finish c w s).n = s.n := rfl
@[simp] theorem finish_rem (c : BitVec 3) (w : BitVec 4) : (finish c w s).rem = s.rem := rfl
@[simp] theorem finish_idx (c : BitVec 3) (w : BitVec 4) : (finish c w s).idx = s.idx := rfl
@[simp] theorem finish_rxb (c : BitVec 3) (w : BitVec 4) : (finish c w s).rxb = s.rxb := rfl
@[simp] theorem finish_k (c : BitVec 3) (w : BitVec 4) : (finish c w s).k = s.k := rfl
@[simp] theorem finish_pl (c : BitVec 3) (w : BitVec 4) : (finish c w s).pl = s.pl := rfl
@[simp] theorem finish_pe (c : BitVec 3) (w : BitVec 4) : (finish c w s).pe = s.pe := rfl
@[simp] theorem finish_ack (c : BitVec 3) (w : BitVec 4) : (finish c w s).ack = s.ack := rfl
@[simp] theorem finish_start (c : BitVec 3) (w : BitVec 4) : (finish c w s).start = s.start := rfl
@[simp] theorem finish_stop (c : BitVec 3) (w : BitVec 4) : (finish c w s).stop = s.stop := rfl
@[simp] theorem finish_pos (c : BitVec 3) (w : BitVec 4) : (finish c w s).pos = s.pos := rfl
@[simp] theorem finish_stat1 (c : BitVec 3) (w : BitVec 4) : (finish c w s).stat1 = s.stat1 := rfl
@[simp] theorem finish_stat2 (c : BitVec 3) (w : BitVec 4) : (finish c w s).stat2 = s.stat2 := rfl
@[simp] theorem finish_rx (c : BitVec 3) (w : BitVec 4) : (finish c w s).rx = s.rx := rfl
@[simp] theorem finish_tx (c : BitVec 3) (w : BitVec 4) : (finish c w s).tx = s.tx := rfl
@[simp] theorem finish_s1Latch (c : BitVec 3) (w : BitVec 4) : (finish c w s).s1Latch = s.s1Latch := rfl
@[simp] theorem finish_startDue (c : BitVec 3) (w : BitVec 4) : (finish c w s).startDue = s.startDue := rfl
@[simp] theorem finish_addrSent (c : BitVec 3) (w : BitVec 4) : (finish c w s).addrSent = s.addrSent := rfl
@[simp] theorem finish_sink (c : BitVec 3) (w : BitVec 4) : (finish c w s).sink = s.sink := rfl
@[simp] theorem finish_pending (c : BitVec 3) (w : BitVec 4) : (finish c w s).pending = s.pending := rfl
@[simp] theorem finish_cmd (c : BitVec 3) (w : BitVec 4) : (finish c w s).cmd = s.cmd := rfl
@[simp] theorem finish_cfg (c : BitVec 3) (w : BitVec 4) : (finish c w s).cfg = s.cfg := rfl
@[simp] theorem finish_raising (c : BitVec 3) (w : BitVec 4) : (finish c w s).raising = s.raising := rfl
@[simp] theorem finish_draws (c : BitVec 3) (w : BitVec 4) : (finish c w s).draws = s.draws := rfl
@[simp] theorem finish_agenda (c : BitVec 3) (w : BitVec 4) : (finish c w s).agenda = s.agenda := rfl
@[simp] theorem finish_trace (c : BitVec 3) (w : BitVec 4) : (finish c w s).trace = s.trace ++ [.done c w] := rfl

/-- A field holds what was written to it, and a write of one field leaves the others (R32). -/
theorem State.ctl_setCtl (f g : CtlField) (b : Bool) :
    (s.setCtl f b).ctl g = if f = g then b else s.ctl g := by
  cases f <;> cases g <;> rfl

end Sys2Proof.Machine
end

