-- ==== Sys2Proof/Laws/Ops.lean ====
section
/-! SUPPORT. One lemma per shared operation that says everything it can do, which proofs cite instead of
unfolding it. -/

namespace Sys2Proof.Machine

/-! ### Lines -/

/-- A line goes on when it may be performed. -/
theorem runLine_eq_next {ln : Line} {s t : State} :
    runLine ln s = .next t ↔ (ln.dataPhase s = false ∨ addrHeld s = false) ∧ perform ln s = .next t := by
  unfold runLine
  cases ln.dataPhase s <;> cases addrHeld s <;> simp

/-- A line that is no data-phase action is performed. -/
theorem runLine_of_not_dataPhase {ln : Line} {s : State} (h : ln.dataPhase s = false) :
    runLine ln s = perform ln s := by
  simp [runLine, h]

/-- With ADDR cleared every line is performed. -/
theorem runLine_of_addr_cleared {ln : Line} {s : State} (h : addrHeld s = false) :
    runLine ln s = perform ln s := by
  simp [runLine, h]

/-- A push goes on only onto a sink with room. -/
theorem pushByte_eq_next {l : Label} {s t : State} :
    pushByte l s = .next t ↔ s.sink.length < s.cfg.sinkCap ∧ t = (sinkPush s).goto l := by
  unfold pushByte
  split <;> simp_all [eq_comm]

/-- A payload byte is sent only when there is one. -/
theorem sendPayloadByte_eq_next {l : Label} {s t : State} :
    sendPayloadByte l s = .next t ↔
      ∃ v, s.pl[s.idx.toNat]? = some v ∧ t = (dataWrite v s).goto l := by
  unfold sendPayloadByte
  cases s.pl[s.idx.toNat]? <;> simp [eq_comm]

/-- The end of a timeout reports the site whose wait failed. -/
theorem endTimeout_eq_next {s t : State} :
    endTimeout s = .next t ↔ ∃ w, s.raising = some w ∧
      t = finish CmdError.busTimeout.code w.number ((s.setK 0).setRaising none) := by
  unfold endTimeout
  cases s.raising <;> simp [eq_comm]

/-! ### Commands -/

/-- An idle sequencer accepts. -/
theorem command_idle {m : Mnemonic} {acc s : State} {line : Option Line} (h : s.fsm = .idle) :
    command m acc line s = .next acc := by
  simp [command, h]

/-- A running sequencer performs a line of the command in flight. -/
theorem command_run {m : Mnemonic} {acc s : State} {line : Option Line} (h : s.fsm = .run)
    (ho : s.op = m.op) : command m acc line s = lineAt line s := by
  simp [command, h, ho]

/-- What a command can do. -/
theorem command_eq_next {m : Mnemonic} {acc s t : State} {line : Option Line} :
    command m acc line s = .next t ↔
      (s.fsm = .idle ∧ t = acc) ∨ (s.fsm = .run ∧ s.op = m.op ∧ ∃ ln, line = some ln ∧
        (ln.dataPhase s = false ∨ addrHeld s = false) ∧ perform ln s = .next t) := by
  unfold command
  cases s.fsm
  · rw [Host.Outcome.next.injEq, eq_comm]
    simp
  · by_cases ho : s.op = m.op
    · cases line <;> simp [ho, lineAt, runLine_eq_next]
    · simp [ho]

/-- `exec` is the command of the instruction's row, with its operands and its lines. -/
theorem exec_eq_command (i : Instr) (s : State) :
    exec i s = command i.mnemonic
      (accept i.mnemonic (operandA i) (operandD i) (operandN i) i.payload (firstLine i.mnemonic) s)
      (lineOf i.mnemonic s.upc) s := by
  cases i <;> rfl

/-- The opcodes tell the commands apart (R54). -/
theorem Mnemonic.op_injective {m m' : Mnemonic} (h : m.op = m'.op) : m = m' := by
  revert h
  cases m <;> cases m' <;> decide

/-- The wait sites have different numbers (R66). -/
theorem Site.number_injective {w w' : Site} (h : w.number = w'.number) : w = w' := by
  revert h
  cases w <;> cases w' <;> decide

/-! ### Polls -/

/-- What a failed poll leads to: stay, count and stay, or count and end with a timeout (R65). -/
theorem pollFailed_cases (w : Site) (s : State) :
    (s.cfg.pollBound = none ∧ pollFailed w s = s)
      ∨ (∃ b, s.cfg.pollBound = some b ∧ s.k + 1 < b ∧ pollFailed w s = s.setK (s.k + 1))
      ∨ (∃ b, s.cfg.pollBound = some b ∧ b ≤ s.k + 1
          ∧ pollFailed w s = raiseTimeout w (s.setK (s.k + 1))) := by
  unfold pollFailed
  cases hb : s.cfg.pollBound with
  | none => exact .inl ⟨rfl, rfl⟩
  | some b =>
    by_cases h : b ≤ s.k + 1
    · exact .inr (.inr ⟨b, rfl, h, if_pos h⟩)
    · exact .inr (.inl ⟨b, rfl, by omega, if_neg h⟩)

/-- A failed poll changes no more than `x[k]`, `upc` and the pending timeout. -/
theorem pollFailed_frame (w : Site) (s : State) :
    pollFailed w s = { s with
      k := (pollFailed w s).k, upc := (pollFailed w s).upc, raising := (pollFailed w s).raising } := by
  unfold pollFailed raiseTimeout
  repeat' split
  all_goals rfl

/-- A poll changes no more than the clearing of ADDR and the trace. -/
theorem pollOnce_frame (w : Site) (s : State) :
    pollOnce w s = { s with
      stat1 := (pollOnce w s).stat1, addrSent := (pollOnce w s).addrSent,
      s1Latch := (pollOnce w s).s1Latch, trace := (pollOnce w s).trace } := by
  unfold pollOnce readStat1 readStat2 ctlRead stat1Effect stat2Effect
  repeat' split
  all_goals rfl

/-- The poll that ends the address phase leaves no half-done clearing (R68 d). -/
theorem pollOnce_ends_phase {s : State} (h : Site.w3.awaited s = true) :
    pollOnce .w3 s = (readStat1 s).dropLatch := by
  simp [pollOnce, Site.poll, endsAddressPhase, h, State.dropLatch]

/-- Every other poll of STAT1 is a read of STAT1 (R44, R65). -/
theorem pollOnce_stat1 {w : Site} {s : State} (hp : w.poll = .stat1) (h : endsAddressPhase w s = false) :
    pollOnce w s = readStat1 s := by
  simp [pollOnce, hp, h]
  rfl

/-- A SEND_ADDR that follows a start may be performed whatever ADDR is (R40, R130). -/
theorem runLine_sendAddrByte_of_start {l : Label} {s : State} (h : s.startDue = true) :
    runLine (.sendAddrByte l) s = perform (.sendAddrByte l) s :=
  runLine_of_not_dataPhase (by simp [Line.dataPhase, h])

/-! ### Writes of CTRL -/

/-- A request for a start condition makes the next byte the address byte (R40). -/
theorem ctlWriteEffect_start (s : State) :
    ctlWriteEffect .start true s = { s with start := true, startDue := true, s1Latch := false } := by
  simp [ctlWriteEffect, State.setCtl]

/-- Any other write of CTRL changes its field and drops the latch. -/
theorem ctlWriteEffect_of_no_start {f : CtlField} {b : Bool} (h : (f == .start && b) = false) (s : State) :
    ctlWriteEffect f b s = (s.setCtl f b).dropLatch := by
  rw [ctlWriteEffect, h, Bool.or_false]
  cases f <;> rfl

/-! ### Clearing of ADDR -/

/-- A bit that is masked out of a register is 0. -/
theorem getLsbD_and_not_bitMask (w : Word) (i j : Nat) (hj : j < 16) :
    (w &&& ~~~bitMask i).getLsbD j = (w.getLsbD j && decide (j ≠ i)) := by
  have h1 : (1#16).getLsbD (j - i) = decide (j - i = 0) := by simp [BitVec.getLsbD_one]
  simp only [bitMask, BitVec.getLsbD_and, BitVec.getLsbD_not, BitVec.getLsbD_shiftLeft, hj, h1,
    decide_true, Bool.true_and]
  by_cases h : j < i
  · have : j ≠ i := by omega
    simp [h, this]
  · by_cases h' : j = i
    · simp [h']
    · have : ¬ j - i = 0 := by omega
      simp [h, h', this]

/-- A bit that is masked into a register is 1, and no other bit changes. -/
theorem getLsbD_or_bitMask (w : Word) (i j : Nat) (hj : j < 16) :
    (w ||| bitMask i).getLsbD j = (w.getLsbD j || decide (j = i)) := by
  have h1 : (1#16).getLsbD (j - i) = decide (j - i = 0) := by simp [BitVec.getLsbD_one]
  simp only [bitMask, BitVec.getLsbD_or, BitVec.getLsbD_shiftLeft, hj, h1, decide_true, Bool.true_and]
  by_cases h : j < i
  · have : j ≠ i := by omega
    simp [h, this]
  · by_cases h' : j = i
    · simp [h']
    · have : ¬ j - i = 0 := by omega
      simp [h, h', this]

/-- A value with ADDR clear shows ADDR 0. -/
@[simp] theorem addrOf_withoutAddr (l : RegLayout) (w : Word) : addrOf l (withoutAddr l w) = false := by
  unfold addrOf withoutAddr
  by_cases h : l.addr < 16
  · simp [getLsbD_and_not_bitMask _ _ _ h]
  · exact BitVec.getLsbD_of_ge _ _ (by omega)

/-- A value with ADDR set shows ADDR 1, where the layout has the bit. -/
theorem addrOf_withAddr {l : RegLayout} (h : l.addr < 16) (w : Word) : addrOf l (withAddr l w) = true := by
  simp [addrOf, withAddr, getLsbD_or_bitMask _ _ _ h]

/-- A layout in which a register shows ADDR has the bit. -/
theorem addr_lt_of_addrOf {l : RegLayout} {w : Word} (h : addrOf l w = true) : l.addr < 16 := by
  by_contra hc
  rw [addrOf, BitVec.getLsbD_of_ge _ _ (by omega)] at h
  cases h

/-- The second read of the pair clears ADDR (R42). -/
theorem stat2Effect_of_pair {s : State} (hl : s.s1Latch = true) (h : addrHeld s = true) :
    stat2Effect s = { s with stat1 := s.stat1Cleared, addrSent := false, s1Latch := false } := by
  rw [stat2Effect, hl, h]
  rfl

/-- A read of STAT2 that completes no pair, or finds ADDR 0, drops the latch and changes nothing else
(R42, R69 c). -/
theorem stat2Effect_of_no_pair {s : State} (h : s.s1Latch = false ∨ addrHeld s = false) :
    stat2Effect s = s.dropLatch := by
  rw [stat2Effect, if_neg]
  rcases h with h | h <;> simp [h]

/-- STAT1 after the pair of reads (R42). -/
theorem stat1_after_pair (s : State) :
    (readStat2 (readStat1 s)).stat1 = if addrHeld s then s.stat1Cleared else s.stat1 := by
  change (stat2Effect (readStat1 s)).stat1 = _
  cases h : addrHeld s
  · rw [stat2Effect_of_no_pair (s := readStat1 s) (.inr h)]
    rfl
  · rw [stat2Effect_of_pair (s := readStat1 s) rfl h]
    rfl

/-! ### Traces -/

@[simp] theorem commandEvents_snoc (tr : List Event) (e : Event) :
    commandEvents (tr ++ [e]) = if e.isDone then [] else commandEvents tr ++ [e] := by
  simp [commandEvents]

@[simp] theorem pushesOf_append (xs ys : List Event) : pushesOf (xs ++ ys) = pushesOf xs ++ pushesOf ys := by
  simp [pushesOf]

@[simp] theorem readsOf_append (xs ys : List Event) : readsOf (xs ++ ys) = readsOf xs ++ readsOf ys := by
  simp [readsOf]

end Sys2Proof.Machine
end

