-- ==== Sys2Proof/Laws/Lines.lean ====
section
/-! SUPPORT. What performing a line can do, said once per group of fields: the label that follows, the
counts, what concerns ADDR, the modes, the result, the sink, the trace. -/

namespace Sys2Proof.Machine

/-! ### Lines as data -/

/-- The labels a line can go on to, a timeout apart. -/
def Line.targets : Line → List Label
  | .ctlSet _ l | .ctlClr _ l | .irqMask l | .irqUnmask l | .stat1 l | .stat2 l => [l]
  | .sendAddrByte l | .sendData l | .sendPayload l | .recv l | .push l | .wait _ l => [l]
  | .requireCount l | .requireCapacity l | .beginRead l | .beginWrite l | .nextIdx l => [l]
  | .selectVariant => [.r84_1, .r85_1, .r86_1]
  | .testRem a b | .testIdx a b => [a, b]
  | .ret | .endTimeout => []

/-- The mask after a line. -/
def Line.imAfter (ln : Line) (b : Bool) : Bool :=
  match ln with
  | .irqMask _ => true
  | .irqUnmask _ => false
  | _ => b

/-- Whether a line is a wait. -/
def Line.isWait : Line → Bool
  | .wait _ _ => true
  | _ => false

/-- Whether a line can end the command. -/
def Line.canEnd : Line → Bool
  | .ret | .endTimeout | .requireCount _ | .requireCapacity _ => true
  | _ => false

/-- What a command can do: be accepted, or perform the line at `upc`. -/
theorem exec_next {i : Instr} {s t : State} (h : exec i s = .next t) :
    (s.fsm = .idle ∧ t = accept i.mnemonic (operandA i) (operandD i) (operandN i) i.payload
        (firstLine i.mnemonic) s)
      ∨ (s.fsm = .run ∧ s.op = i.mnemonic.op ∧ ∃ ln, lineOf i.mnemonic s.upc = some ln ∧
        (ln.dataPhase s = false ∨ addrHeld s = false) ∧ perform ln s = .next t) := by
  rwa [exec_eq_command, command_eq_next] at h

/-- The lines of a command lead to lines of the same command, and neither into nor out of the lines of
a timeout. -/
theorem lineOf_target {m : Mnemonic} {u l : Label} {ln : Line} (h : lineOf m u = some ln)
    (hl : l ∈ ln.targets) :
    (lineOf m l).isSome = true ∧ l ≠ .idle ∧ l.cleanUp = u.cleanUp := by
  revert l
  cases m <;> cases u <;> first
    | (cases h; done)
    | (cases h; decide)

/-- The mask and the windows agree line by line. -/
theorem lineOf_masked {m : Mnemonic} {u l : Label} {ln : Line} (h : lineOf m u = some ln)
    (hl : l ∈ ln.targets) : l.masked = ln.imAfter u.masked := by
  revert l
  cases m <;> cases u <;> first
    | (cases h; done)
    | (cases h; decide)

/-- No line inside a window is a wait or can end the command. -/
theorem lineOf_masked_shape {m : Mnemonic} {u : Label} {ln : Line} (h : lineOf m u = some ln)
    (hu : u.masked = true) : ln.isWait = false ∧ ln.canEnd = false := by
  cases m <;> cases u <;> first
    | (cases h; done)
    | (cases hu; done)
    | (cases h; exact ⟨rfl, rfl⟩)

/-- A wait stands at the label of its site. -/
theorem lineOf_wait_site {m : Mnemonic} {u l : Label} {w : Site} (h : lineOf m u = some (.wait w l)) :
    u.site = some w ∧ u.cleanUp = false ∧ u.masked = false := by
  cases m <;> cases u <;> first
    | (cases h; done)
    | (cases h; exact ⟨rfl, rfl, rfl⟩)

/-- A line that is no wait stands at a label without a site. -/
theorem lineOf_no_site {m : Mnemonic} {u : Label} {ln : Line} (h : lineOf m u = some ln)
    (hw : ln.isWait = false) : u.site = none := by
  cases m <;> cases u <;> first
    | rfl
    | (cases h; done)
    | (cases h; cases hw)

/-- `isRead` tests the row. -/
theorem isRead_of_op {m : Mnemonic} {s : State} (ho : s.op = m.op) : isRead s = (m == .read) := by
  unfold isRead
  rw [ho]
  cases m <;> rfl

/-- A timeout goes to the first line of its clean-up. -/
theorem raiseTimeout_of_op {m : Mnemonic} {s : State} (w : Site) (ho : s.op = m.op) :
    raiseTimeout w s = (s.setRaising (some w)).goto (timeoutLabel m s.n) := by
  unfold raiseTimeout
  rw [isRead_of_op ho]
  cases m <;> rfl

/-! ### Waits -/

/-- What a step at a wait line does (R65). -/
theorem waitUntil_cases (w : Site) (l : Label) (s : State) :
    (w.awaited s = true ∧ waitUntil w l s = ((pollOnce w s).setK 0).goto l)
      ∨ (w.awaited s = false ∧ s.cfg.pollBound = none ∧ waitUntil w l s = pollOnce w s)
      ∨ (w.awaited s = false ∧ (∃ b, s.cfg.pollBound = some b ∧ s.k + 1 < b)
          ∧ waitUntil w l s = (pollOnce w s).setK (s.k + 1))
      ∨ (w.awaited s = false ∧ (∃ b, s.cfg.pollBound = some b ∧ b ≤ s.k + 1)
          ∧ waitUntil w l s = raiseTimeout w ((pollOnce w s).setK (s.k + 1))) := by
  unfold waitUntil
  have hc : (pollOnce w s).cfg = s.cfg := by rw [pollOnce_frame]
  have hk : (pollOnce w s).k = s.k := by rw [pollOnce_frame]
  cases ha : w.awaited s
  · right
    simp only [Bool.false_eq_true, if_false]
    have := pollFailed_cases w (pollOnce w s)
    rw [hc, hk] at this
    rcases this with ⟨h1, h2⟩ | ⟨b, h1, h2, h3⟩ | ⟨b, h1, h2, h3⟩
    · exact .inl ⟨by simp, h1, h2⟩
    · exact .inr (.inl ⟨by simp, ⟨b, h1, h2⟩, h3⟩)
    · exact .inr (.inr ⟨by simp, ⟨b, h1, h2⟩, h3⟩)
  · simp

/-- A wait changes no more than this, and goes on, stays or ends with a timeout. -/
theorem waitUntil_frame (w : Site) (l : Label) (s : State) :
    ∃ k u r s1 a1 a2 tr, waitUntil w l s = { s with
        k := k, upc := u, raising := r, s1Latch := s1, stat1 := a1, addrSent := a2, trace := tr }
      ∧ (u = l ∨ u = s.upc ∨ u = if isRead s then (if s.n = 2 then .r106_1 else .r106_2) else .r104_2) := by
  rcases waitUntil_cases w l s with ⟨_, h⟩ | ⟨_, _, h⟩ | ⟨_, _, h⟩ | ⟨_, _, h⟩ <;> rw [h, pollOnce_frame]
  · exact ⟨_, _, _, _, _, _, _, rfl, .inl rfl⟩
  · exact ⟨_, _, _, _, _, _, _, rfl, .inr (.inl rfl)⟩
  · exact ⟨_, _, _, _, _, _, _, rfl, .inr (.inl rfl)⟩
  · exact ⟨_, _, _, _, _, _, _, rfl, .inr (.inr rfl)⟩

/-- A poll appends its event. -/
theorem pollOnce_trace (w : Site) (s : State) : (pollOnce w s).trace = s.trace ++ [w.pollEvent s] := by
  unfold pollOnce Site.pollEvent
  cases w.poll
  · rfl
  · simp only [readStat2, State.log_trace]
    unfold stat2Effect
    split <;> rfl
  · rfl

/-! ### Frames of the accesses -/

/-- A read of STAT2 changes no more than what concerns ADDR. -/
theorem stat2Effect_frame (s : State) : stat2Effect s = { s with
    stat1 := (stat2Effect s).stat1, addrSent := (stat2Effect s).addrSent,
    s1Latch := (stat2Effect s).s1Latch } := by
  unfold stat2Effect
  split <;> rfl

/-- A read of DATA changes no more than the received bytes, or the number of free values drawn. -/
theorem dataReadEffect_frame (s : State) : dataReadEffect s = { s with
    rx := (dataReadEffect s).rx, draws := (dataReadEffect s).draws, s1Latch := false } := by
  unfold dataReadEffect
  split <;> rfl

/-- The pair of reads clears ADDR: with ADDR held and STAT1 just read, a read of STAT2 leaves ADDR 0 and
no address phase outstanding. -/
theorem stat2Effect_clears {s : State} (h : addrHeld s = true) (hl : s.s1Latch = true) :
    addrHeld (stat2Effect s) = false ∧ (stat2Effect s).addrSent = false := by
  rw [stat2Effect, hl, h]
  exact ⟨addrOf_withoutAddr _ _, rfl⟩

/-! ### What performing a line does, per group of fields -/

/-- `upc`, `fsm`, `x[op]`, the pending timeout, the parameters and the mask after a line: it goes on, it
is a wait that stays or times out, or it ends the command. -/
theorem perform_control {ln : Line} {s t : State} (h : perform ln s = .next t) :
    (t.upc ∈ ln.targets ∧ t.fsm = s.fsm ∧ t.op = s.op ∧ t.raising = s.raising ∧ t.cfg = s.cfg
        ∧ t.im = ln.imAfter s.im)
      ∨ (∃ w l, ln = .wait w l ∧ t.fsm = s.fsm ∧ t.op = s.op ∧ t.im = s.im ∧ t.cfg = s.cfg
        ∧ ((t.upc = s.upc ∧ t.raising = s.raising)
          ∨ (t.raising = some w
            ∧ t.upc = if isRead s then (if s.n = 2 then .r106_1 else .r106_2) else .r104_2)))
      ∨ (t.upc = .idle ∧ t.fsm = .idle ∧ t.im = s.im ∧ t.cfg = s.cfg
        ∧ ((ln = .endTimeout ∧ t.raising = none)
          ∨ (t.raising = s.raising ∧ (ln = .ret ∨ ∃ l, ln = .requireCount l ∨ ln = .requireCapacity l)))) := by
  cases ln <;> simp only [perform, Host.Outcome.next.injEq, returnOk, pushByte_eq_next,
    sendPayloadByte_eq_next, endTimeout_eq_next] at h
  case endTimeout => obtain ⟨w, hw, rfl⟩ := h; right; right; simp
  case ret => subst h; simp
  case push => obtain ⟨_, rfl⟩ := h; simp [Line.imAfter, Line.targets, sinkPush]
  case sendPayload =>
    obtain ⟨v, _, rfl⟩ := h
    simp [Line.imAfter, Line.targets, dataWrite, dataWriteEffect]
  case wait w l =>
    subst h
    rcases waitUntil_cases w l s with ⟨_, h⟩ | ⟨_, _, h⟩ | ⟨_, _, h⟩ | ⟨_, _, h⟩
    · rw [h]; left; rw [pollOnce_frame]; simp [Line.imAfter, Line.targets]
    · rw [h]; right; left; rw [pollOnce_frame]; simp
    · rw [h]; right; left; rw [pollOnce_frame]; simp
    · rw [h]; right; left; rw [pollOnce_frame]; simp [raiseTimeout, isRead]; exact Or.inr rfl
  case requireCount => subst h; split <;> simp [Line.imAfter, Line.targets, raiseNow]
  case requireCapacity => subst h; split <;> simp [Line.imAfter, Line.targets, raiseNow]
  case stat2 =>
    subst h; left; simp only [readStat2]; rw [stat2Effect_frame]; simp [Line.imAfter, Line.targets]
  case recv =>
    subst h; left; simp only [dataRead]; rw [dataReadEffect_frame]; simp [Line.imAfter, Line.targets]
  case selectVariant =>
    subst h; left; simp only [Line.imAfter, Line.targets, State.goto_upc]
    unfold readVariant variantEntry
    split <;> try split
    all_goals simp_all
  case testRem => subst h; left; simp only [Line.imAfter, Line.targets]; split <;> simp
  case testIdx => subst h; left; simp only [Line.imAfter, Line.targets]; split <;> simp
  all_goals (subst h; left; simp [Line.imAfter, Line.targets, ctlWrite, ctlWriteEffect, setMask,
    readStat1, stat1Effect, dataWrite, dataWriteEffect])

/-- The counts, the direction and the label after a line that does not end the command. -/
def Line.counts (ln : Line) (s t : State) : Prop :=
  match ln with
  | .push l => t.rem = s.rem - 1 ∧ t.d = s.d ∧ t.idx = s.idx ∧ t.upc = l
  | .beginRead l => t.rem = s.n ∧ t.d = .read ∧ t.idx = s.idx ∧ t.upc = l
  | .beginWrite l => t.rem = s.rem ∧ t.d = .write ∧ t.idx = 0 ∧ t.upc = l
  | .nextIdx l => t.rem = s.rem ∧ t.d = s.d ∧ t.idx = s.idx + 1 ∧ t.upc = l
  | .requireCount l => t.rem = s.rem ∧ t.d = s.d ∧ t.idx = s.idx ∧ t.upc = l ∧ s.n ≠ 0
  | .requireCapacity l =>
    t.rem = s.rem ∧ t.d = s.d ∧ t.idx = s.idx ∧ t.upc = l ∧ s.n.toNat ≤ s.cfg.sinkCap
  | .testRem a b => t.rem = s.rem ∧ t.d = s.d ∧ t.idx = s.idx
      ∧ ((3 < s.rem.toNat ∧ t.upc = a) ∨ (s.rem.toNat ≤ 3 ∧ t.upc = b))
  | .testIdx a b => t.rem = s.rem ∧ t.d = s.d ∧ t.idx = s.idx
      ∧ ((s.idx.toNat < s.n.toNat ∧ t.upc = a) ∨ (s.n.toNat ≤ s.idx.toNat ∧ t.upc = b))
  | .selectVariant =>
    t.rem = s.rem ∧ t.d = s.d ∧ t.idx = s.idx ∧ t.upc = variantEntry (readVariant s.n)
  | .wait _ l => t.rem = s.rem ∧ t.d = s.d ∧ t.idx = s.idx ∧ (t.upc = l ∨ t.upc = s.upc
      ∨ t.upc = if isRead s then (if s.n = 2 then .r106_1 else .r106_2) else .r104_2)
  | .ret | .endTimeout => False
  | ln => t.rem = s.rem ∧ t.d = s.d ∧ t.idx = s.idx ∧ [t.upc] = ln.targets

/-- Counts: a line ends the command, or keeps the descriptor and moves the counts as it says. -/
theorem perform_counts {ln : Line} {s t : State} (h : perform ln s = .next t) :
    (t.fsm = .idle ∧ ln.canEnd = true)
      ∨ (t.fsm = s.fsm ∧ t.op = s.op ∧ t.a = s.a ∧ t.n = s.n ∧ t.pl = s.pl ∧ t.cfg = s.cfg
        ∧ ln.counts s t) := by
  cases ln <;> simp only [perform, Host.Outcome.next.injEq, returnOk, pushByte_eq_next,
    sendPayloadByte_eq_next, endTimeout_eq_next] at h
  case endTimeout => obtain ⟨w, hw, rfl⟩ := h; left; exact ⟨rfl, rfl⟩
  case ret => subst h; left; exact ⟨rfl, rfl⟩
  case push => obtain ⟨_, rfl⟩ := h; right; simp [sinkPush, Line.counts]
  case sendPayload =>
    obtain ⟨v, _, rfl⟩ := h
    right
    simp [Line.counts, Line.targets, dataWrite, dataWriteEffect]
  case wait w l =>
    subst h
    obtain ⟨k, u, r, s1, a1, a2, tr, h, hu⟩ := waitUntil_frame w l s
    rw [h]
    right
    exact ⟨rfl, rfl, rfl, rfl, rfl, rfl, rfl, rfl, rfl, hu⟩
  case requireCount => subst h; split <;> simp_all [raiseNow, Line.counts, Line.canEnd]
  case requireCapacity =>
    subst h
    split
    · left; exact ⟨rfl, rfl⟩
    · right; simp only [Line.counts, State.goto_fsm]; simp; omega
  case stat2 =>
    subst h; right; simp only [readStat2]; rw [stat2Effect_frame]; simp [Line.counts, Line.targets]
  case recv =>
    subst h; right; simp only [dataRead]; rw [dataReadEffect_frame]; simp [Line.counts, Line.targets]
  case testRem =>
    subst h; right; by_cases h : 3 < s.rem.toNat <;> simp [h, Line.counts]; omega
  case testIdx =>
    subst h; right; by_cases h : s.idx.toNat < s.n.toNat <;> simp [h, Line.counts]; omega
  all_goals (subst h; right; simp [Line.counts, Line.targets, ctlWrite, ctlWriteEffect, setMask,
    readStat1, stat1Effect, dataWrite, dataWriteEffect])

/-- `x[k]` after a line: a wait resets it, keeps it, counts, or counts to the bound and times out; the
end of a command by `raise` resets it; every other line keeps it (R65, R104). -/
theorem perform_k {ln : Line} {s t : State} (h : perform ln s = .next t) :
    (∃ w l, ln = .wait w l ∧ ((t.k = 0 ∧ t.upc = l)
        ∨ (t.k = s.k ∧ s.cfg.pollBound = none ∧ t.upc = s.upc ∧ t.raising = s.raising)
        ∨ (∃ b, s.cfg.pollBound = some b ∧ s.k + 1 < b ∧ t.k = s.k + 1 ∧ t.upc = s.upc)
        ∨ (∃ b, s.cfg.pollBound = some b ∧ b ≤ s.k + 1 ∧ t.k = s.k + 1
          ∧ t.upc = (if isRead s then (if s.n = 2 then .r106_1 else .r106_2) else .r104_2))))
      ∨ (ln.isWait = false ∧ ((t.upc = .idle ∧ t.k = 0) ∨ (ln = .ret ∧ t.upc = .idle ∧ t.k = s.k)
        ∨ (t.k = s.k ∧ t.upc ∈ ln.targets))) := by
  have hc := perform_control h
  cases ln <;> simp only [perform, Host.Outcome.next.injEq, returnOk, pushByte_eq_next,
    sendPayloadByte_eq_next, endTimeout_eq_next] at h
  case endTimeout => obtain ⟨w, hw, rfl⟩ := h; right; simp [Line.isWait]
  case ret => subst h; right; simp [Line.isWait]
  case push => obtain ⟨_, rfl⟩ := h; right; simp [sinkPush, Line.targets, Line.isWait]
  case sendPayload =>
    obtain ⟨v, _, rfl⟩ := h
    right
    simp [Line.targets, dataWrite, dataWriteEffect, Line.isWait]
  case wait w l =>
    subst h
    left
    refine ⟨w, l, rfl, ?_⟩
    clear hc
    rcases waitUntil_cases w l s with ⟨_, h⟩ | ⟨_, hb, h⟩ | ⟨_, ⟨b, hb, hk⟩, h⟩ | ⟨_, ⟨b, hb, hk⟩, h⟩ <;>
      rw [h]
    · left; simp
    · right; left; rw [pollOnce_frame]; simp [hb]
    · right; right; left; refine ⟨b, hb, hk, ?_⟩; rw [pollOnce_frame]; simp
    · right; right; right; refine ⟨b, hb, hk, ?_⟩
      rw [pollOnce_frame]; simp only [raiseTimeout, isRead]; simp; rfl
  case requireCount => subst h; right; split <;> simp [raiseNow, Line.targets, Line.isWait]
  case requireCapacity => subst h; right; split <;> simp [raiseNow, Line.targets, Line.isWait]
  case stat2 =>
    subst h; right; simp only [readStat2]; rw [stat2Effect_frame]; simp [Line.targets, Line.isWait]
  case recv =>
    subst h; right; simp only [dataRead]; rw [dataReadEffect_frame]; simp [Line.targets, Line.isWait]
  case selectVariant =>
    rcases hc with ⟨h1, _⟩ | ⟨w, l, hh, _⟩ | ⟨_, _, _, _, hh⟩
    · right; exact ⟨rfl, .inr (.inr ⟨by subst h; rfl, h1⟩)⟩
    · cases hh
    · simp at hh
  case testRem => subst h; right; by_cases h : 3 < s.rem.toNat <;> simp [h, Line.targets, Line.isWait]
  case testIdx =>
    subst h; right; by_cases h : s.idx.toNat < s.n.toNat <;> simp [h, Line.targets, Line.isWait]
  all_goals (subst h; right; simp [Line.targets, Line.isWait, ctlWrite, ctlWriteEffect, setMask,
    readStat1, stat1Effect, dataWrite, dataWriteEffect])

/-- STAT1, the start and the address phase outstanding, and the address-clear latch after a line. -/
def Line.addr (ln : Line) (s t : State) : Prop :=
  match ln with
  | .stat1 _ =>
    t.stat1 = s.stat1 ∧ t.addrSent = s.addrSent ∧ t.startDue = s.startDue ∧ t.s1Latch = true
  | .stat2 _ => t.stat1 = (stat2Effect s).stat1 ∧ t.addrSent = (stat2Effect s).addrSent
      ∧ t.startDue = s.startDue ∧ t.s1Latch = false
  | .sendAddrByte _ | .sendData _ | .sendPayload _ => t.stat1 = s.stat1
      ∧ t.addrSent = (s.addrSent || s.startDue) ∧ t.startDue = false ∧ t.s1Latch = false
  | .ctlSet f _ => t.stat1 = s.stat1 ∧ t.addrSent = s.addrSent
      ∧ t.startDue = (s.startDue || f == .start) ∧ t.s1Latch = false
  | .ctlClr _ _ =>
    t.stat1 = s.stat1 ∧ t.addrSent = s.addrSent ∧ t.startDue = s.startDue ∧ t.s1Latch = false
  | .wait w l => t.startDue = s.startDue
      ∧ (match w.poll with
        | .stat1 => t.stat1 = s.stat1 ∧ t.addrSent = s.addrSent
        | .stat2 => s.s1Latch = false → t.stat1 = s.stat1 ∧ t.addrSent = s.addrSent ∧ t.s1Latch = false
        | .stopField => t.stat1 = s.stat1 ∧ t.addrSent = s.addrSent ∧ t.s1Latch = false)
      ∧ (t.upc = l → l ≠ s.upc → l.cleanUp = false → w.awaited s = true)
  | _ => t.stat1 = s.stat1 ∧ t.addrSent = s.addrSent ∧ t.startDue = s.startDue

/-- What concerns ADDR changes as the line says (R42). -/
theorem perform_addr {ln : Line} {s t : State} (h : perform ln s = .next t) : ln.addr s t := by
  cases ln <;> simp only [perform, Host.Outcome.next.injEq, returnOk, pushByte_eq_next,
    sendPayloadByte_eq_next, endTimeout_eq_next] at h
  case endTimeout => obtain ⟨w, hw, rfl⟩ := h; simp [Line.addr]
  case ret => subst h; simp [Line.addr]
  case push => obtain ⟨_, rfl⟩ := h; simp [sinkPush, Line.addr]
  case sendPayload => obtain ⟨v, _, rfl⟩ := h; simp [Line.addr, dataWrite, dataWriteEffect]
  case wait w l =>
    subst h
    refine ⟨by obtain ⟨k, u, r, s1, a1, a2, tr, h, _⟩ := waitUntil_frame w l s; rw [h], ?_, ?_⟩ <;>
      rcases waitUntil_cases w l s with ⟨_, h⟩ | ⟨_, hb, h⟩ | ⟨_, ⟨b, hb, hk⟩, h⟩ | ⟨_, ⟨b, hb, hk⟩, h⟩ <;>
      rw [h]
    iterate 4
      · cases hp : w.poll <;>
          simp [raiseTimeout, pollOnce, hp, readStat1, readStat2, ctlRead, stat1Effect, stat2Effect]
        all_goals (intro hs; simp [hs])
    · intros; assumption
    · rw [pollOnce_frame]; intro h1 h2; exact absurd h1.symm h2
    · rw [pollOnce_frame]; intro h1 h2; exact absurd h1.symm h2
    · simp only [raiseTimeout, State.goto_upc]
      intro h1 _ h3
      rw [← h1] at h3
      revert h3
      split <;> try split
      all_goals (intro h; cases h)
  case requireCount => subst h; split <;> simp [raiseNow, finish, Line.addr]
  case requireCapacity => subst h; split <;> simp [raiseNow, finish, Line.addr]
  case stat2 =>
    subst h
    simp only [Line.addr, readStat2]
    unfold stat2Effect
    split <;> simp
  case recv =>
    subst h; simp only [dataRead]; rw [dataReadEffect_frame]; simp [Line.addr]
  all_goals (subst h; simp [Line.addr, ctlWrite, ctlWriteEffect, setMask, readStat1, stat1Effect,
    dataWrite, dataWriteEffect])

/-- ACK and POS after a line. -/
def Line.modes (ln : Line) (s t : State) : Prop :=
  match ln with
  | .ctlSet f _ =>
    t.ack = (if f = .ack then true else s.ack) ∧ t.pos = (if f = .pos then true else s.pos)
  | .ctlClr f _ =>
    t.ack = (if f = .ack then false else s.ack) ∧ t.pos = (if f = .pos then false else s.pos)
  | _ => t.ack = s.ack ∧ t.pos = s.pos

/-- ACK and POS change only by a write of the field (R17). -/
theorem perform_modes {ln : Line} {s t : State} (h : perform ln s = .next t) : ln.modes s t := by
  cases ln <;> simp only [perform, Host.Outcome.next.injEq, returnOk, pushByte_eq_next,
    sendPayloadByte_eq_next, endTimeout_eq_next] at h
  case endTimeout => obtain ⟨w, hw, rfl⟩ := h; simp [Line.modes]
  case ret => subst h; simp [Line.modes]
  case push => obtain ⟨_, rfl⟩ := h; simp [sinkPush, Line.modes]
  case sendPayload => obtain ⟨v, _, rfl⟩ := h; simp [Line.modes, dataWrite, dataWriteEffect]
  case wait w l =>
    subst h
    obtain ⟨k, u, r, s1, a1, a2, tr, h, hu⟩ := waitUntil_frame w l s
    rw [h]
    simp [Line.modes]
  case requireCount => subst h; split <;> simp [raiseNow, finish, Line.modes]
  case requireCapacity => subst h; split <;> simp [raiseNow, finish, Line.modes]
  case stat2 => subst h; simp only [readStat2]; rw [stat2Effect_frame]; simp [Line.modes]
  case recv => subst h; simp only [dataRead]; rw [dataReadEffect_frame]; simp [Line.modes]
  case ctlSet f l => subst h; cases f <;> simp [ctlWrite, ctlWriteEffect, State.setCtl, Line.modes]
  case ctlClr f l => subst h; cases f <;> simp [ctlWrite, ctlWriteEffect, State.setCtl, Line.modes]
  all_goals (subst h; simp [Line.modes, setMask, readStat1, stat1Effect, dataWrite,
    dataWriteEffect])

/-- The result registers are kept, or hold a result (R62). -/
theorem perform_result {ln : Line} {s t : State} (h : perform ln s = .next t) :
    (t.status = s.status ∧ t.site = s.site) ∨ t.resultInv := by
  cases ln <;> simp only [perform, Host.Outcome.next.injEq, returnOk, pushByte_eq_next,
    sendPayloadByte_eq_next, endTimeout_eq_next] at h
  case endTimeout => obtain ⟨w, hw, rfl⟩ := h; right; right; right; left; exact ⟨rfl, w, rfl⟩
  case ret => subst h; right; left; exact ⟨rfl, rfl⟩
  case push => obtain ⟨_, rfl⟩ := h; simp [sinkPush]
  case sendPayload => obtain ⟨v, _, rfl⟩ := h; simp [dataWrite, dataWriteEffect]
  case wait w l =>
    subst h
    obtain ⟨k, u, r, s1, a1, a2, tr, h, hu⟩ := waitUntil_frame w l s
    rw [h]
    simp
  case requireCount =>
    subst h
    split
    · right; right; right; right; exact ⟨rfl, rfl⟩
    · left; simp
  case requireCapacity =>
    subst h
    split
    · right; right; left; exact ⟨rfl, rfl⟩
    · left; simp
  case stat2 => subst h; simp only [readStat2]; rw [stat2Effect_frame]; simp
  case recv => subst h; simp only [dataRead]; rw [dataReadEffect_frame]; simp
  all_goals (subst h; simp [ctlWrite, ctlWriteEffect, setMask, readStat1, stat1Effect,
    dataWrite, dataWriteEffect])

/-- A line keeps the sink, or pushes `x[rxb]` at its tail where there is room (R22, R38). -/
theorem perform_sink {ln : Line} {s t : State} (h : perform ln s = .next t) :
    t.sink = s.sink ∨ (t.sink = s.sink ++ [s.rxb] ∧ s.sink.length < s.cfg.sinkCap) := by
  cases ln <;> simp only [perform, Host.Outcome.next.injEq, returnOk, pushByte_eq_next,
    sendPayloadByte_eq_next, endTimeout_eq_next] at h
  case endTimeout => obtain ⟨w, hw, rfl⟩ := h; simp
  case ret => subst h; simp
  case push => obtain ⟨hr, rfl⟩ := h; right; simpa [sinkPush] using hr
  case sendPayload => obtain ⟨v, _, rfl⟩ := h; simp [dataWrite, dataWriteEffect]
  case wait w l =>
    subst h
    obtain ⟨k, u, r, s1, a1, a2, tr, h, hu⟩ := waitUntil_frame w l s
    rw [h]
    simp
  case requireCount => subst h; split <;> simp [raiseNow, finish]
  case requireCapacity => subst h; split <;> simp [raiseNow, finish]
  case stat2 => subst h; simp only [readStat2]; rw [stat2Effect_frame]; simp
  case recv => subst h; simp only [dataRead]; rw [dataReadEffect_frame]; simp
  all_goals (subst h; simp [ctlWrite, ctlWriteEffect, setMask, readStat1, stat1Effect,
    dataWrite, dataWriteEffect])

/-- The bytes read and pushed by the present command, and `x[rxb]`, after a line that does not end the
command. -/
def Line.bytes (ln : Line) (s t : State) : Prop :=
  match ln with
  | .recv _ => readsOf (commandEvents t.trace) = readsOf (commandEvents s.trace) ++ [t.rxb]
      ∧ pushesOf (commandEvents t.trace) = pushesOf (commandEvents s.trace)
  | .push _ => readsOf (commandEvents t.trace) = readsOf (commandEvents s.trace)
      ∧ pushesOf (commandEvents t.trace) = pushesOf (commandEvents s.trace) ++ [s.rxb]
  | .ret | .endTimeout => False
  | _ => readsOf (commandEvents t.trace) = readsOf (commandEvents s.trace)
      ∧ pushesOf (commandEvents t.trace) = pushesOf (commandEvents s.trace) ∧ t.rxb = s.rxb

/-- A line ends the command, with a DONE, or adds to the bytes read and pushed as it says (R82). -/
theorem perform_bytes {ln : Line} {s t : State} (h : perform ln s = .next t) :
    (t.fsm = .idle ∧ commandEvents t.trace = []) ∨ ln.bytes s t := by
  cases ln <;> simp only [perform, Host.Outcome.next.injEq, returnOk, pushByte_eq_next,
    sendPayloadByte_eq_next, endTimeout_eq_next] at h
  case endTimeout => obtain ⟨w, hw, rfl⟩ := h; simp [Event.isDone]
  case ret => subst h; simp [Event.isDone]
  case push => obtain ⟨_, rfl⟩ := h; right; simp [sinkPush, Event.isDone, readsOf, pushesOf, Line.bytes]
  case sendPayload =>
    obtain ⟨v, _, rfl⟩ := h
    right
    simp [Line.bytes, dataWrite, dataWriteEffect, Event.isDone, readsOf, pushesOf]
  case wait w l =>
    subst h
    right
    have hq : ∀ tr, readsOf (commandEvents (tr ++ [w.pollEvent s])) = readsOf (commandEvents tr)
        ∧ pushesOf (commandEvents (tr ++ [w.pollEvent s])) = pushesOf (commandEvents tr) := by
      intro tr
      unfold Site.pollEvent
      cases w.poll <;> simp [Event.isDone, readsOf, pushesOf]
    have hr : (pollOnce w s).rxb = s.rxb := by rw [pollOnce_frame]
    rcases waitUntil_cases w l s with ⟨_, h⟩ | ⟨_, _, h⟩ | ⟨_, _, h⟩ | ⟨_, _, h⟩ <;> rw [h] <;>
      simp only [Line.bytes, raiseTimeout, State.goto_trace, State.setK_trace, State.setRaising_trace,
        State.goto_rxb, State.setK_rxb, State.setRaising_rxb, pollOnce_trace, hq, hr, and_self]
  case requireCount => subst h; split <;> simp [raiseNow, finish, Event.isDone, Line.bytes]
  case requireCapacity => subst h; split <;> simp [raiseNow, finish, Event.isDone, Line.bytes]
  case stat2 =>
    subst h
    simp only [readStat2]
    rw [stat2Effect_frame]
    simp [Line.bytes, Event.isDone, readsOf, pushesOf]
  case recv =>
    subst h
    simp only [dataRead]
    rw [dataReadEffect_frame]
    simp [Line.bytes, Event.isDone, readsOf, pushesOf]
  case ctlSet f l =>
    subst h
    cases f <;> simp [ctlWrite, ctlWriteEffect, State.setCtl, Line.bytes, Event.isDone, readsOf, pushesOf]
  case ctlClr f l =>
    subst h
    cases f <;> simp [ctlWrite, ctlWriteEffect, State.setCtl, Line.bytes, Event.isDone, readsOf, pushesOf]
  all_goals (subst h; simp [setMask, readStat1, stat1Effect, dataWrite, dataWriteEffect,
    Line.bytes, Event.isDone, readsOf, pushesOf])

end Sys2Proof.Machine
end

