-- ==== Sys2Proof/Laws/PerInstr.lean ====
section
/-! SUPPORT. Statements about every command as syntax, one lemma per constructor. -/

namespace Sys2Proof.Laws

/-! ### EncLength: a serialised command is four bytes longer than its payload (R51, R57) -/

namespace EncLength

/-- The length of a serialised command: "its length in bytes is `4 + n`" for a WRITE, four for every
other command (R57). -/
def Statement (i : Instr) : Prop := (encode i).length = 4 + i.payload.length

/-- The four bytes of the word come first. -/
theorem of_word (i : Instr) : Statement i := by
  simp [Statement, encode, CmdWord.bytes]
  omega

theorem genStart : Statement .genStart := of_word _
theorem sendAddr (a : Byte) (d : Dir) : Statement (.sendAddr a d) := of_word _
theorem clrAddr : Statement .clrAddr := of_word _
theorem writeByte (v : Byte) : Statement (.writeByte v) := of_word _
theorem genStop : Statement .genStop := of_word _
theorem read (a : Byte) (n : Count) : Statement (.read a n) := of_word _
theorem write (a : Byte) (n : Count) (payload : List Byte) : Statement (.write a n payload) := of_word _

end EncLength

end Sys2Proof.Laws
end

