-- ==== Sys2Proof/Laws/Step.lean ====
section
/-! SUPPORT. What a step can do: whose turn it is, what the sequencer takes up, what a foreign access can
change, what the decoder can answer. -/

namespace Sys2Proof.Machine

/-! ### Decoding -/

/-- The decoder's commands are well formed. -/
theorem decode_wf {bs rest : List Byte} {i : Instr} (h : decode bs = .command i rest) : i.wf = true := by
  unfold decode at h
  split at h
  · dsimp only at h
    split at h
    · rename_i m hm
      cases m <;> simp only [Mnemonic.command, takePayload] at h
      case write =>
        split at h
        · cases h
          simp [Instr.wf]
          omega
        · cases h
      all_goals (cases h; rfl)
    · cases h
  · cases h

/-! ### Turns -/

/-- The state a turn hands on differs in the agenda alone. -/
theorem turn_sequencer {s s' : State} (h : turn s = .sequencer s') : s' = { s with agenda := s'.agenda } := by
  unfold turn at h
  split at h
  · cases h; rfl
  · cases h; rfl
  · split at h <;> cases h; rfl

/-- The state a turn hands on differs in the agenda alone, and the move stood at its head, not held
off. -/
theorem turn_agent {s s' : State} {m : Move} (h : turn s = .agent m s') :
    s' = { s with agenda := s'.agenda } ∧ s.agenda = m :: s'.agenda ∧ heldOff m s = false := by
  unfold turn at h
  split at h
  · cases h
  · cases h
  · rename_i m' rest _ ha
    split at h
    · cases h
    · rename_i hh
      cases h
      exact ⟨rfl, ha, by simpa using hh⟩

/-! ### The sequencer's step -/

/-- The command in flight is the one that the registers name. -/
theorem inFlight_of_op {s : State} {m : Mnemonic} (h : s.op = m.op) :
    ∃ i, inFlight s = some i ∧ i.mnemonic = m ∧ (m = .write → i = .write s.a s.n s.pl) := by
  unfold inFlight
  rw [h]
  cases m <;> refine ⟨_, rfl, rfl, ?_⟩ <;> first
    | (intro h; cases h; done)
    | (intro _; rfl)

/-- While a command runs, the operands `exec` is given do not matter: they were latched. -/
theorem exec_run {i : Instr} {s : State} (hf : s.fsm = .run) (ho : s.op = i.mnemonic.op) :
    exec i s = lineAt (lineOf i.mnemonic s.upc) s := by
  rw [exec_eq_command, command_run hf ho]

/-- A running sequencer performs the line of the command in flight. -/
theorem sequencerStep_run {s : State} {m : Mnemonic} (hf : s.fsm = .run) (ho : s.op = m.op) :
    sequencerStep s = lineAt (lineOf m s.upc) s := by
  obtain ⟨i, hi, rfl, _⟩ := inFlight_of_op ho
  simp only [sequencerStep, hf, hi]
  exact exec_run hf ho

/-- An idle sequencer takes what stands at the command port. -/
theorem sequencerStep_of_idle {s : State} (hf : s.fsm = .idle) :
    sequencerStep s = match fetch s with
      | .command i s' => exec i s'
      | .rejected s' => .next s'
      | .waiting => .next s := by
  unfold sequencerStep
  split
  · rfl
  · simp_all

/-- An idle sequencer accepts a complete command, ends an illegal word, or waits. -/
theorem sequencerStep_idle {s t : State} (hf : s.fsm = .idle) (h : sequencerStep s = .next t) :
    (∃ i rest, decode s.cmd = .command i rest ∧ exec i { s with cmd := rest } = .next t)
      ∨ (∃ w why rest, decode s.cmd = .illegal w why rest ∧ t = acceptIllegal w { s with cmd := rest })
      ∨ (∃ why, decode s.cmd = .incomplete why ∧ t = s) := by
  rw [sequencerStep_of_idle hf, fetch] at h
  cases hd : decode s.cmd with
  | command i rest => rw [hd] at h; exact .inl ⟨i, rest, rfl, h⟩
  | illegal w why rest => rw [hd] at h; cases h; exact .inr (.inl ⟨w, why, rest, rfl, rfl⟩)
  | incomplete why => rw [hd] at h; cases h; exact .inr (.inr ⟨why, rfl, rfl⟩)

/-! ### Other agents -/

/-- A foreign access changes no more than the controller's state and the free values drawn. -/
theorem foreignEffect_frame (x : ForeignAccess) (s : State) : foreignEffect x s = { s with
    pe := (foreignEffect x s).pe, ack := (foreignEffect x s).ack, start := (foreignEffect x s).start,
    stop := (foreignEffect x s).stop, pos := (foreignEffect x s).pos,
    stat1 := (foreignEffect x s).stat1, rx := (foreignEffect x s).rx, tx := (foreignEffect x s).tx,
    s1Latch := (foreignEffect x s).s1Latch, startDue := (foreignEffect x s).startDue,
    addrSent := (foreignEffect x s).addrSent, draws := (foreignEffect x s).draws } := by
  cases x <;> simp only [foreignEffect]
  case ctlWrite f b => cases f <;> rfl
  case stat2 => rw [stat2Effect_frame]
  case dataRead => rw [dataReadEffect_frame]
  all_goals rfl

/-- A change of STAT1 by the controller leaves an ADDR that is held 1 (R42). -/
theorem addrHeld_setStat1 {w : Word} {s : State} (h : addrHeld s = true) :
    addrHeld (setStat1 w s) = true := by
  change addrOf s.cfg.layout (nextStat1 w s) = true
  rw [nextStat1, if_pos h]
  exact addrOf_withAddr (addr_lt_of_addrOf h) w

/-- With no address phase outstanding a change of STAT1 by the controller leaves ADDR 0 (R42). -/
theorem setStat1_keeps_cleared {w : Word} {s : State} (h : addrHeld s = false) (ha : s.addrSent = false) :
    addrHeld (setStat1 w s) = false ∧ (setStat1 w s).addrSent = false := by
  simp [addrHeld, setStat1, nextStat1, ha] at h ⊢
  simp [h]

/-- While an address phase is outstanding and ADDR is 0, STAT1 takes the value the controller gives it, and
the address phase is outstanding until ADDR is shown (R42). -/
theorem setStat1_outstanding {w : Word} {s : State} (h : addrHeld s = false) (ha : s.addrSent = true) :
    setStat1 w s = { s with stat1 := w, addrSent := !addrOf s.cfg.layout w } := by
  simp [setStat1, nextStat1, h, ha]

end Sys2Proof.Machine
end

