-- ==== Sys2Proof/Tests/Slice0.lean ====
section
/-! SUPPORT. Tests on words and values that the spec writes out, and a witness for the hypotheses of every
statement of Sys2Proof/Certificates/Slice0/Obligations.lean. -/

namespace Sys2Proof.Tests

open Sys2Proof Sys2Proof.Machine

/-! ### Helpers -/

/-- A state with the command of row `m` in flight at line `l`, the mask and the modes as that line has
them. -/
def flying (m : Mnemonic) (l : Label) : State :=
  { State.reset with
    fsm := .run, upc := l, op := m.op, im := l.masked, ack := !l.ackCleared, pos := l.posSet }

/-- A READ in flight with its counts. -/
def reading (l : Label) (n rem : Count) : State := { flying .read l with d := .read, n := n, rem := rem }

/-- A WRITE in flight with its payload and index. -/
def writing (l : Label) (pl : List Byte) (idx : Count) : State :=
  { flying .write l with n := BitVec.ofNat 16 pl.length, pl := pl, idx := idx }

/-- An idle state whose controller answers every poll of a status register at once (E0 of
95_test_vectors.md, R60). -/
def answering (cmd rx : List Byte) (agenda : List Move) : State :=
  { State.reset with stat1 := 0x0047, stat2 := 0x0001, cmd := cmd, rx := rx, agenda := agenda }

/-- ADDR held: STAT1 shows ADDR under the default layout (R60). -/
def held (s : State) : State := { s with stat1 := 0x0002 }

/-- The controller of `answering` with ADDR 0, as it is once the pair of reads has cleared it. -/
def clearedAnswering (cmd : List Byte) (agenda : List Move) : State :=
  { answering cmd [] agenda with stat1 := 0x0045 }

/-- A legal launch (R128): ADDR is 0 in STAT1, and the controller raises it after `before` steps of the sequencer and
clears STOP after `after` more. -/
def launching (cmd rx : List Byte) (before after : Nat) : State :=
  { answering cmd rx (List.replicate before .sequencer ++ [.stat1 0x0046] ++ List.replicate after .sequencer
      ++ [.clearStop]) with stat1 := 0x0001 }

/-! ### Well-formedness -/

/-- R57: a payload has as many bytes as the count says. -/
theorem test_wf_refuses_short_payload : (Instr.write 0x78 2 [0x01]).wf = false := by decide
theorem test_wf_refuses_long_payload : (Instr.write 0x78 0 [0x01]).wf = false := by decide
theorem test_wf_admits_zero_counts :
    (Instr.read 0x78 0).wf = true ∧ (Instr.write 0x78 0 []).wf = true := by decide
/-- R59: an assembler rejects `BulkRead` with `N < 3`. -/
theorem test_bulkRead_below_three :
    Instr.bulkRead 0x78 2 = none ∧ Instr.bulkRead 0x78 3 = some (.read 0x78 3) := by decide

/-! ### Words written out from R51, R54 and R58 (V1) -/

theorem test_decode_GEN_START : decode [0x00, 0x00, 0x00, 0x10] = .command .genStart [] := by decide
theorem test_decode_SEND_ADDR_R :
    decode [0x00, 0x00, 0x78, 0x21] = .command (.sendAddr 0x78 .read) [] := by decide
theorem test_decode_SEND_ADDR_W :
    decode [0x00, 0x00, 0x78, 0x20] = .command (.sendAddr 0x78 .write) [] := by decide
theorem test_decode_CLR_ADDR : decode [0x00, 0x00, 0x00, 0x30] = .command .clrAddr [] := by decide
theorem test_decode_WRITE_BYTE :
    decode [0x00, 0x00, 0x20, 0x40] = .command (.writeByte 0x20) [] := by decide
theorem test_decode_GEN_STOP : decode [0x00, 0x00, 0x00, 0x50] = .command .genStop [] := by decide
theorem test_decode_READ :
    decode [0x2C, 0x01, 0x78, 0x80, 0xAA] = .command (.read 0x78 300) [0xAA] := by decide
theorem test_decode_WRITE :
    decode [0x02, 0x00, 0x78, 0x90, 0x0A, 0x0B, 0xAA] = .command (.write 0x78 2 [0x0A, 0x0B]) [0xAA] := by
  decide
theorem test_decode_WRITE_incomplete :
    decode [0x02, 0x00, 0x78, 0x90, 0x0A] = .incomplete .payload ∧ decode [0x02, 0x00, 0x78] = .incomplete .word := by
  decide
/-- V1: the illegal words. -/
theorem test_decode_illegal :
    [0x00000000#32, 0xFFFFFFFF#32, 0x60000000#32, 0x70000000#32, 0xA0000000#32, 0x10000001#32,
      0x10010000#32, 0x22780000#32, 0x20780001#32, 0x41200000#32, 0x81780001#32].all
      (fun w => match decodeWord w with
        | .error _ => true
        | .ok _ => false) = true := by
  decide
theorem test_encode_WRITE : encode (.write 0x78 1 [0x01]) = [0x01, 0x00, 0x78, 0x90, 0x01] := by decide
theorem test_decodeTableWord_WRITE_zeros : decodeTableWord 32 0x90780002 = some (.write 0x78 2 [0, 0]) := by
  decide
/-- The host's placement runs the row's command as the first one after reset. -/
theorem test_withFetchWord_runs_READ : ∃ t, step (State.reset.withFetchWord 32 0x80780003) = .next t
    ∧ t.op = 0x8 ∧ t.a = 0x78 ∧ t.n = 3 ∧ t.upc = .r81_1 := ⟨_, rfl, by decide⟩

/-- V2, and the other form (90_conflicts.md C2). -/
theorem test_addrByte_left8 : [addrByte .left8 0x78 .write, addrByte .left8 0x78 .read,
    addrByte .left8 0x79 .write, addrByte .left8 0x00 .read, addrByte .left8 0xFF .write,
    addrByte .left8 0xA0 .read] = [0x78, 0x79, 0x78, 0x01, 0xFE, 0xA1] := by decide
theorem test_addrByte_right7 : [addrByte .right7 0x78 .write, addrByte .right7 0x78 .read] = [0xF0, 0xF1] := by
  decide

/-! ### Single steps, from 95_test_vectors.md -/

/-- V4: at W1 `S2->11` and `S2->00` fail, `S2->01` ends the wait. -/
theorem test_GEN_START_waits_for_both_flags :
    [0x3#16, 0x0#16, 0x2#16, 0x1#16].map (fun w => masterEntered Config.standard w)
      = [false, false, false, true] := by decide
/-- V5: the third failed poll with `POLL_BOUND = some 3` begins the timeout. -/
theorem test_GEN_START_third_failed_poll : ∃ t,
    exec .genStart { flying .genStart .r67_2 with
      k := 2, cfg := { Config.standard with pollBound := some 3 } } = .next t
    ∧ t.upc = .r104_2 ∧ t.raising = some .w1 := ⟨_, rfl, by decide⟩
/-- V3: `SEND_ADDR 0x79, W` writes 0x78. -/
theorem test_SEND_ADDR_forces_low_bit : ∃ t,
    exec (.sendAddr 0x79 .write) { flying .sendAddr .r68_2 with a := 0x79 } = .next t
    ∧ t.trace = [.dw 0x78] ∧ t.tx = [0x78] := ⟨_, rfl, by decide⟩
/-- V4: at W3 everything but ADDR fails. -/
theorem test_SEND_ADDR_needs_ADDR : ∃ t,
    exec (.sendAddr 0x78 .read) { flying .sendAddr .r68_3 with stat1 := 0x0045 } = .next t
    ∧ t.upc = .r68_3 := ⟨_, rfl, by decide⟩
/-- R69: the second read clears ADDR and nothing else of STAT1. -/
theorem test_CLR_ADDR_clears : ∃ t,
    exec .clrAddr { flying .clrAddr .r69_2 with stat1 := 0x0047, s1Latch := true } = .next t
    ∧ t.stat1 = 0x0045 := ⟨_, rfl, by decide⟩
/-- V3: `WRITE_BYTE 0x20` sends 0x20. -/
theorem test_WRITE_BYTE_sends : ∃ t,
    exec (.writeByte 0x20) { flying .writeByte .r70_1 with a := 0x20 } = .next t
    ∧ t.trace = [.dw 0x20] := ⟨_, rfl, by decide⟩
/-- V3: `CW(STOP,1)`, and the wait then polls the field itself. -/
theorem test_GEN_STOP_polls_its_own_request : ∃ t,
    exec .genStop { flying .genStop .r71_2 with stop := true } = .next t
    ∧ t.trace = [.cr .stop true] ∧ t.upc = .r71_2 := ⟨_, rfl, by decide⟩
/-- V12: `N = SINK_CAP` passes, `N = SINK_CAP + 1` does not. -/
theorem test_READ_capacity : (∃ t, exec (.read 0x78 255) (reading .r81_2 255 0) = .next t ∧ t.upc = .r83_1)
    ∧ (∃ t, exec (.read 0x78 256) (reading .r81_2 256 0) = .next t ∧ t.status = 1 ∧ t.trace = [.done 1 0]) :=
  ⟨⟨_, rfl, by decide⟩, ⟨_, rfl, by decide⟩⟩
/-- V8, V9: no loop round with three bytes to come, one with four. -/
theorem test_READ_loop_boundary :
    (∃ t, exec (.read 0x78 3) (reading .r86_3 3 3) = .next t ∧ t.upc = .r86_7)
    ∧ (∃ t, exec (.read 0x78 4) (reading .r86_3 4 4) = .next t ∧ t.upc = .r86_4) :=
  ⟨⟨_, rfl, by decide⟩, ⟨_, rfl, by decide⟩⟩
/-- V15: payload bytes in list order. -/
theorem test_WRITE_second_byte : ∃ t,
    exec (.write 0x79 2 [0x0A, 0x0B]) (writing .r95_4 [0x0A, 0x0B] 1) = .next t
    ∧ t.trace = [.dw 0x0B] := ⟨_, rfl, by decide⟩
/-- V1: `0x90780000` is refused by value. -/
theorem test_WRITE_empty : ∃ t, exec (.write 0x78 0 []) (writing .r95_1 [] 0) = .next t
    ∧ t.status = 3 ∧ t.fsm = .idle ∧ t.trace = [.done 3 0] := ⟨_, rfl, by decide⟩
/-- R60: the default layout places ACK at bit 10 of CTRL and PE at bit 0. -/
theorem test_ctrlWord_at_reset : ctrlWord State.reset = 0x0401 := by decide
/-- R60, R61: addresses and ports of events under the default layout. -/
theorem test_event_addresses :
    (Event.dr 0).address RegLayout.stm32 = some 0x40005410
    ∧ (Event.s2 0).address RegLayout.stm32 = some 0x40005418 ∧ (Event.push 0).address RegLayout.stm32 = none
    ∧ (Event.push 0).port = .byteSink
    ∧ (Event.cw .stop true).register = some .ctrl ∧ (Event.cw .stop true).field = some .stop := by decide
/-- R58, R61: the command port with a whole WRITE standing at it, and with its last byte missing. -/
theorem test_command_port :
    (answering [0x01, 0x00, 0x78, 0x90, 0x0A] [] []).cmdValid = true
    ∧ (answering [0x01, 0x00, 0x78, 0x90, 0x0A] [] []).cmdWord = some 0x90780001
    ∧ (answering [0x01, 0x00, 0x78, 0x90, 0x0A] [] []).cmdPayload = [0x0A]
    ∧ (answering [0x01, 0x00, 0x78, 0x90] [] []).cmdValid = false := by decide
/-- R40: the byte that follows a start condition is the address byte, whichever primitive writes it, and ADDR
can then rise (R42). -/
theorem test_WRITE_BYTE_after_start_is_the_address_byte : ∃ t,
    exec (.writeByte 0x78) { flying .writeByte .r70_1 with a := 0x78, startDue := true } = .next t
    ∧ t.addrSent = true ∧ addrHeld (setStat1 0x0002 t) = true := ⟨_, rfl, by decide⟩
/-- R40, R42: with no start condition the byte of SEND_ADDR begins no address phase, and ADDR does not rise. -/
theorem test_SEND_ADDR_without_start : ∃ t,
    exec (.sendAddr 0x78 .read) { flying .sendAddr .r68_2 with a := 0x78 } = .next t
    ∧ t.addrSent = false ∧ addrHeld (setStat1 0x0002 t) = false := ⟨_, rfl, by decide⟩
/-- R130, U2: with ADDR 1 and no start condition the byte of SEND_ADDR is a data access, and a fault; after a
start it is the address byte. -/
theorem test_SEND_ADDR_again_without_start :
    exec (.sendAddr 0x78 .read) (held (flying .sendAddr .r68_2)) = .fault .addrNotCleared
    ∧ ∃ t, exec (.sendAddr 0x78 .read) { held (flying .sendAddr .r68_2) with startDue := true } = .next t
      ∧ t.addrSent = true := ⟨rfl, _, rfl, by decide⟩
/-- R68 d: the successful poll of W3 is not the first half of the clearing, a failed one is a read of STAT1 as
any other (R44). -/
theorem test_SEND_ADDR_last_poll_does_not_arm :
    (pollOnce .w3 (held State.reset)).s1Latch = false ∧ (pollOnce .w3 State.reset).s1Latch = true
    ∧ addrHeld (readStat2 (pollOnce .w3 (held State.reset))) = true := by decide
/-- R112: no byte is sent inside a masked window. -/
theorem test_transmit_held_off_in_window :
    heldOff .transmit (reading .r84_5 1 1) = true ∧ heldOff .transmit (reading .r84_7 1 1) = false := by decide

/-! ### Witnesses: states in flight satisfy the invariant -/

/-- A READ in flight after the clearing of ADDR satisfies the invariant when its counts do. -/
theorem reading_inv {l : Label} {n rem : Count} (hl : (readLine l).isSome = true) (hi : l ≠ .idle)
    (hc : l.cleanUp = false) (hb : l.beforeClearing = false) (h2 : l.beforeAddrByte = false)
    (hn : readCounts l 255 n.toNat rem.toNat) : (reading l n rem).Inv where
  control := ⟨by simp [reading, flying, hi], fun _ => ⟨.read, rfl, hl⟩, by simp [reading, flying, hc, State.reset]⟩
  mask := rfl
  counts := ⟨fun _ _ => ⟨rfl, hn⟩, fun _ h => absurd h (by simp only [reading, flying]; decide)⟩
  polls := ⟨rfl, rfl⟩
  addr := ⟨fun _ _ => rfl, fun _ _ h => absurd (h2.symm.trans h) (by decide), fun _ _ _ => rfl,
    fun _ _ h => absurd (hb.symm.trans h) (by decide),
    fun _ _ _ => ⟨show addrOf RegLayout.stm32 0 = false by decide, rfl⟩⟩
  result := .inl ⟨rfl, rfl⟩
  sink := Nat.zero_le _

/-- The invariants of ACK, POS and the trace for such a READ: modes as the line has them, `x[rem]` as
the pushes say. -/
theorem reading_ackInv {l : Label} {n rem : Count} : (reading l n rem).ackInv :=
  ⟨fun h => by simp only [reading, flying, h, Bool.not_true] at *,
    fun h _ _ => by simp only [reading, flying, h, Bool.not_false] at *,
    fun h => h, fun h _ => h⟩

/-- A READ about to be dispatched. -/
theorem reading_entry_inv : (reading .r83_1 3 0).Inv :=
  reading_inv rfl (by decide) rfl rfl rfl (by simp [readCounts])

/-- A primitive in flight satisfies the invariant. -/
theorem flying_inv {m : Mnemonic} {l : Label} (hl : (lineOf m l).isSome = true) (hi : l ≠ .idle)
    (hc : l.cleanUp = false) (hr : m ≠ .read) (hw : m ≠ .write) : (flying m l).Inv where
  control := ⟨by simp [flying, hi], fun _ => ⟨m, rfl, hl⟩, by simp [flying, hc, State.reset]⟩
  mask := rfl
  counts := ⟨fun _ h => absurd (Mnemonic.op_injective h) hr, fun _ h => absurd (Mnemonic.op_injective h) hw⟩
  polls := ⟨rfl, rfl⟩
  addr := by
    have hop : ¬ ((flying m l).op = Mnemonic.read.op ∨ (flying m l).op = Mnemonic.write.op) := fun h =>
      h.elim (fun h => hr (Mnemonic.op_injective h)) (fun h => hw (Mnemonic.op_injective h))
    exact ⟨fun _ _ => rfl, fun _ h => absurd h hop, fun _ h => absurd h hop, fun _ h => absurd h hop,
      fun _ h => absurd h hop⟩
  result := .inl ⟨rfl, rfl⟩
  sink := Nat.zero_le _

/-- A WRITE in flight with one payload byte sent satisfies the invariant. -/
theorem writing_inv : (writing .r95_4 [0x0A, 0x0B] 1).Inv where
  control := ⟨by decide, fun _ => ⟨.write, rfl, rfl⟩, rfl⟩
  mask := rfl
  counts := ⟨fun _ h => absurd h (by decide), fun _ _ => ⟨rfl, rfl, by simp [writeCounts, writing, flying]⟩⟩
  polls := ⟨rfl, rfl⟩
  addr := ⟨fun _ _ => rfl, fun _ _ h => absurd h (by decide), fun _ _ _ => rfl,
    fun _ _ h => absurd h (by decide), fun _ _ _ => ⟨rfl, rfl⟩⟩
  result := .inl ⟨rfl, rfl⟩
  sink := by simp [State.sinkInv, writing, flying, State.reset]

/-- The reset state satisfies the invariant. -/
theorem reset_inv : State.reset.Inv where
  control := ⟨by decide, fun h => absurd h (by decide), rfl⟩
  mask := rfl
  counts := ⟨fun h => absurd h (by decide), fun h => absurd h (by decide)⟩
  polls := ⟨rfl, rfl⟩
  addr := ⟨fun h => absurd h (by decide), fun h => absurd h (by decide), fun h => absurd h (by decide),
    fun h => absurd h (by decide), fun h => absurd h (by decide)⟩
  result := .inl ⟨rfl, rfl⟩
  sink := by simp [State.sinkInv, State.reset]

/-! ### Witnesses of hypotheses: encoding and acceptance -/

theorem witness_DecodeEncodeRoundTrip : (Instr.write 0x78 2 [0x0A, 0x0B]).wf = true := by decide
theorem witness_EncodeDecodeRoundTrip :
    decode [0x01, 0x00, 0x78, 0x90, 0x01, 0x02] = .command (.write 0x78 1 [0x01]) [0x02] := by decide
theorem witness_OpcodeMapRows : decodeWord 0x21780000 = .ok .sendAddr := by decide
/-- One word for each reason of R56. -/
theorem witness_IllegalWordsRefused :
    CmdWord.op 0x00000000 ∈ [0x0#4, 0x6#4] ∧ CmdWord.z3 0x22780000 ≠ 0
    ∧ (CmdWord.op 0x41200000 ≠ 0x2#4 ∧ CmdWord.d 0x41200000 ≠ 0)
    ∧ (CmdWord.op 0x10010000 ∈ [0x1#4, 0x3#4, 0x5#4] ∧ CmdWord.a 0x10010000 ≠ 0)
    ∧ (CmdWord.op 0x20780001 ∈ [0x1#4, 0x2#4] ∧ CmdWord.n 0x20780001 ≠ 0) := by decide
theorem witness_StepRunsDecodedCommand :
    (∃ s', turn (answering [0x00, 0x00, 0x00, 0x10] [] []) = .sequencer s' ∧ s'.fsm = .idle
      ∧ decode s'.cmd = .command .genStart [])
    ∧ (∃ s', turn (flying .writeByte .r70_1) = .sequencer s' ∧ s'.fsm = .run
      ∧ s'.op = (Instr.writeByte 0).mnemonic.op ∧ s'.a = operandA (.writeByte 0)
      ∧ s'.d = operandD (.writeByte 0) ∧ s'.n = operandN (.writeByte 0) ∧ s'.pl = (Instr.writeByte 0).payload) :=
  ⟨⟨_, rfl, by decide⟩, ⟨_, rfl, by decide⟩⟩
theorem witness_AcceptanceLatchesCommand :
    State.reset.agenda = [] ∧ State.reset.fsm = .idle ∧ State.reset.upc = .idle
    ∧ (answering (encode (.read 0x78 3) ++ [0x00]) [] []).cmd = encode (.read 0x78 3) ++ [0x00]
    ∧ (match decodeWord 0x81780001 with
      | .error why => why = .mustBeZeroSet
      | .ok _ => False) := ⟨rfl, rfl, rfl, rfl, rfl⟩
/-- No command, a word cut short by one byte, and a WRITE whose only payload byte is missing. -/
theorem witness_IncompleteCommandIsNotAccepted :
    State.reset.cmdValid = false
    ∧ (answering [0x00, 0x00, 0x00] [] []).cmd.length < 4
    ∧ (answering (CmdWord.bytes (CmdWord.ofFields 0x9 0 0x78 1)) [] []).cmd
        = CmdWord.bytes (CmdWord.ofFields 0x9 0 0x78 1) ++ []
    ∧ ([] : List Byte).length < (1 : Count).toNat := by decide
theorem witness_CommandHeldOffWhileRunning :
    { flying .genStart .r67_1 with agenda := [.offer [0x00]] }.agenda = .offer [0x00] :: []
    ∧ ∃ t, (flying .genStart .r67_1).fsm = .run ∧ step (flying .genStart .r67_1) = .next t :=
  ⟨rfl, _, rfl, rfl⟩
theorem witness_OneEventPerStep : ∃ t, step (flying .genStart .r67_1) = .next t := ⟨_, rfl⟩

/-! ### Witnesses of hypotheses: waits -/

/-- One state for each clause: ADDR held, answered, no bound, below the bound, at the bound. -/
theorem witness_WaitLineStep :
    ((held (flying .writeByte .r70_2)).standsAt .writeByte .r70_2 ∧ addrHeld (held (flying .writeByte .r70_2)) = true
      ∧ Site.w4.dataPhase = true ∧ lineOf .writeByte .r70_2 = some (.wait .w4 .r70_3))
    ∧ (addrHeld (flying .writeByte .r70_2) = false
      ∧ Site.w4.awaited { flying .writeByte .r70_2 with stat1 := 0x0004 } = true)
    ∧ (Site.w4.awaited (flying .writeByte .r70_2) = false ∧ (flying .writeByte .r70_2).cfg.pollBound = none)
    ∧ (let s := { flying .writeByte .r70_2 with cfg := { Config.standard with pollBound := some 2 } };
      s.standsAt .writeByte .r70_2 ∧ addrHeld s = false ∧ Site.w4.awaited s = false
      ∧ s.cfg.pollBound = some 2 ∧ s.k + 1 < 2)
    ∧ (let s := { flying .writeByte .r70_2 with cfg := { Config.standard with pollBound := some 1 } };
      s.standsAt .writeByte .r70_2 ∧ addrHeld s = false ∧ Site.w4.awaited s = false
      ∧ s.cfg.pollBound = some 1 ∧ 1 ≤ s.k + 1) := by decide
theorem witness_WaitSiteTable : State.reset.cfg.masterEntered = .literal := by decide
theorem witness_UnansweredWaitHangs :
    (flying .genStart .r67_2).standsAt .genStart .r67_2
    ∧ lineOf .genStart .r67_2 = some (.wait .w1 .r67_3) ∧ (flying .genStart .r67_2).agenda = []
    ∧ (flying .genStart .r67_2).maskInv ∧ (flying .genStart .r67_2).cfg.pollBound = none
    ∧ Site.w1.awaited (flying .genStart .r67_2) = false ∧ Site.w1.dataPhase = false :=
  ⟨by decide, rfl, rfl, rfl, rfl, by decide, rfl⟩
theorem witness_BoundedWaitTimesOut :
    let s := { flying .genStart .r67_2 with cfg := { Config.standard with pollBound := some 1 } }
    s.standsAt .genStart .r67_2 ∧ lineOf .genStart .r67_2 = some (.wait .w1 .r67_3) ∧ s.agenda = []
    ∧ s.cfg.pollBound = some 1 ∧ s.k = 0 ∧ Site.w1.awaited s = false ∧ Site.w1.dataPhase = false := by decide
/-- A wait left by success, by a timeout, and by reset. -/
theorem witness_WaitLeftOnlyBySuccess :
    (∃ t, step { flying .genStart .r67_2 with stat2 := 0x0001 } = .next t ∧ t.upc ≠ .r67_2)
    ∧ (∃ t, step { flying .genStart .r67_2 with
        cfg := { Config.standard with pollBound := some 1 } } = .next t ∧ t.upc ≠ .r67_2)
    ∧ (∃ t, step { flying .genStart .r67_2 with agenda := [.reset] } = .next t ∧ t.upc ≠ .r67_2) :=
  ⟨⟨_, rfl, by decide⟩, ⟨_, rfl, by decide⟩, ⟨_, rfl, by decide⟩⟩
theorem witness_BoundDoesNotChangeSuccess :
    let s := flying .genStart .r67_2
    let t := { s with cfg := { Config.standard with pollBound := some 2 } }
    sameButBound s t ∧ s.cfg.pollBound = none ∧ (∃ t', Sys2Proof.core.run 1 t = .next t' ∧ t'.raising = none)
    ∧ t.raising = none := ⟨rfl, rfl, ⟨_, rfl, by decide⟩, rfl⟩

/-! ### Witnesses of hypotheses: the primitives -/

theorem witness_PrimitiveLines :
    (flying .genStart .r67_1).standsAt .genStart .r67_1 ∧ (flying .sendAddr .r68_2).standsAt .sendAddr .r68_2
    ∧ addrHeld (flying .sendAddr .r68_2) = false
    ∧ (flying .clrAddr .r69_1).standsAt .clrAddr .r69_1 ∧ (flying .clrAddr .r69_2).standsAt .clrAddr .r69_2
    ∧ (flying .writeByte .r70_1).standsAt .writeByte .r70_1 ∧ addrHeld (flying .writeByte .r70_1) = false
    ∧ (flying .genStop .r71_1).standsAt .genStop .r71_1 ∧ addrHeld (flying .genStop .r71_1) = false := by
  decide
theorem witness_ReturnLines :
    (flying .genStart .r67_3).standsAt .genStart .r67_3 ∧ (reading .r86_21 3 0).standsAt .read .r86_21
    ∧ (writing .r95_9 [0x0A] 1).standsAt .write .r95_9 := by decide
theorem witness_GenStartCompletes :
    let s := answering (encode .genStart) [] []
    s.agenda = [] ∧ s.fsm = .idle ∧ s.upc = .idle ∧ s.cmd = encode .genStart ++ [] ∧ masterEntered s.cfg s.stat2 = true := by
  decide
theorem witness_SendAddrCompletes :
    (let s := { answering (encode (.sendAddr 0x78 .read)) [] [] with startDue := true };
      s.agenda = [] ∧ s.fsm = .idle ∧ s.upc = .idle ∧ s.cmd = encode (.sendAddr 0x78 .read) ++ []
      ∧ s.startDue = true ∧ sbOf s.cfg.layout s.stat1 = true ∧ addrOf s.cfg.layout s.stat1 = true)
    ∧ (let s := { clearedAnswering (encode (.sendAddr 0x78 .read))
        [.sequencer, .sequencer, .sequencer, .stat1 0x0002] with startDue := true };
      s.fsm = .idle ∧ s.upc = .idle ∧ s.cmd = encode (.sendAddr 0x78 .read) ++ [] ∧ s.startDue = true
      ∧ sbOf s.cfg.layout s.stat1 = true ∧ addrOf s.cfg.layout s.stat1 = false
      ∧ addrOf s.cfg.layout 0x0002 = true) := by decide
theorem witness_ClrAddrCompletes :
    let s := answering (encode .clrAddr) [] []
    s.agenda = [] ∧ s.fsm = .idle ∧ s.upc = .idle ∧ s.cmd = encode .clrAddr ++ [] := by decide
theorem witness_WriteByteCompletes :
    let s := clearedAnswering (encode (.writeByte 0x20)) []
    s.agenda = [] ∧ s.fsm = .idle ∧ s.upc = .idle ∧ s.cmd = encode (.writeByte 0x20) ++ []
    ∧ addrHeld s = false ∧ btfOf s.cfg.layout s.stat1 = true := by decide
theorem witness_GenStopCompletes :
    let s := clearedAnswering (encode .genStop) [.sequencer, .sequencer, .clearStop]
    s.agenda = [.sequencer, .sequencer, .clearStop] ∧ s.fsm = .idle ∧ s.upc = .idle
    ∧ s.cmd = encode .genStop ++ [] ∧ addrHeld s = false := by decide
theorem witness_PrimitivesLeaveUntouched :
    Instr.genStop.mnemonic ∈ [Mnemonic.genStart, .sendAddr, .clrAddr, .writeByte, .genStop]
    ∧ ∃ t, exec .genStop (flying .genStop .r71_1) = .next t := ⟨by decide, _, rfl⟩
/-- ADDR held at a data byte, at a stop request of a primitive, at the stop requests of READ and WRITE, and at
the byte of a SEND_ADDR that follows no start. -/
theorem witness_DataPhaseNeedsAddrCleared :
    ((held (reading .r84_5 1 1)).standsAt .read .r84_5
      ∧ lineOf .read .r84_5 = some (.ctlSet .stop .r84_6) ∧ (Line.ctlSet .stop .r84_6).dataPhase State.reset = true
      ∧ addrOf RegLayout.stm32 (held (reading .r84_5 1 1)).stat1 = true)
    ∧ ((held (writing .r95_7 [0x0A] 1)).standsAt .write .r95_7
      ∧ lineOf .write .r95_7 = some (.ctlSet .stop .r95_8))
    ∧ ((held (flying .writeByte .r70_1)).standsAt .writeByte .r70_1 ∧ addrHeld (held (flying .writeByte .r70_1)) = true)
    ∧ ((held (flying .genStop .r71_1)).standsAt .genStop .r71_1 ∧ addrHeld (held (flying .genStop .r71_1)) = true)
    ∧ ((held (flying .sendAddr .r68_2)).standsAt .sendAddr .r68_2
      ∧ lineOf .sendAddr .r68_2 = some (.sendAddrByte .r68_3)
      ∧ (Line.sendAddrByte .r68_3).dataPhase (held (flying .sendAddr .r68_2)) = true)
    ∧ exec .genStop (held (flying .genStop .r71_1)) = .fault .addrNotCleared :=
  ⟨by decide, by decide, by decide, by decide, by decide, rfl⟩
/-- The latch 0; a bit of STAT1 other than ADDR; ADDR held, ADDR 0 with no address phase, and with one; a step
in which ADDR falls, by the sequencer and by another master, and one in which it rises. -/
theorem witness_AddrClearedByThePairOnly : (State.reset.s1Latch = false ∧ (0 : Nat) ≠ State.reset.cfg.layout.addr
    ∧ (15 : Nat) < 16 ∧ addrHeld (held State.reset) = true
    ∧ (addrHeld State.reset = false ∧ State.reset.addrSent = false)
    ∧ addrHeld { State.reset with addrSent := true } = false)
    ∧ (∃ t, step { held (flying .clrAddr .r69_2) with s1Latch := true } = .next t ∧ addrHeld t = false)
    ∧ (∃ t, step { held State.reset with s1Latch := true, agenda := [.foreign .stat2] } = .next t
      ∧ addrHeld t = false)
    ∧ (∃ t, step { State.reset with addrSent := true, agenda := [.stat1 0x0002] } = .next t
      ∧ addrHeld t = true) :=
  ⟨by decide, ⟨_, rfl, by decide⟩, ⟨_, rfl, by decide⟩, _, rfl, by decide⟩
/-- A form for each primitive, and the latch 0 at the poll of GEN_START. -/
theorem witness_PrimitiveFrames :
    ((flying .genStart .r67_2).s1Latch = false ∧ ∃ t, exec .genStart (flying .genStart .r67_2) = .next t)
    ∧ (∃ t, exec (.sendAddr 0x78 .read) (flying .sendAddr .r68_2) = .next t)
    ∧ (∃ t, exec .clrAddr (flying .clrAddr .r69_2) = .next t)
    ∧ (∃ t, exec (.writeByte 0x20) (flying .writeByte .r70_1) = .next t)
    ∧ (∃ t, exec .genStop (flying .genStop .r71_1) = .next t) :=
  ⟨⟨rfl, _, rfl⟩, ⟨_, rfl⟩, ⟨_, rfl⟩, ⟨_, rfl⟩, ⟨_, rfl⟩⟩

/-! ### Witnesses of hypotheses: READ -/

theorem witness_ReadChecks :
    ((reading .r81_1 0 0).standsAt .read .r81_1 ∧ (reading .r81_1 0 0).n = 0)
    ∧ ((reading .r81_1 1 0).standsAt .read .r81_1 ∧ (reading .r81_1 1 0).n ≠ 0)
    ∧ ((reading .r81_2 256 0).standsAt .read .r81_2
      ∧ (reading .r81_2 256 0).cfg.sinkCap < (reading .r81_2 256 0).n.toNat)
    ∧ ((reading .r81_2 255 0).standsAt .read .r81_2
      ∧ (reading .r81_2 255 0).n.toNat ≤ (reading .r81_2 255 0).cfg.sinkCap) := by decide
theorem witness_ReadDispatch :
    (reading .r83_1 1 0).standsAt .read .r83_1
    ∧ ((reading .r83_2 1 1).standsAt .read .r83_2 ∧ (reading .r83_2 1 1).n = 1)
    ∧ ((reading .r83_2 2 2).standsAt .read .r83_2 ∧ (reading .r83_2 2 2).n = 2)
    ∧ ((reading .r83_2 3 3).standsAt .read .r83_2 ∧ (reading .r83_2 3 3).n ≠ 1 ∧ (reading .r83_2 3 3).n ≠ 2)
    ∧ ((reading .r86_3 4 4).standsAt .read .r86_3 ∧ 3 < (reading .r86_3 4 4).rem.toNat)
    ∧ ((reading .r86_3 4 3).standsAt .read .r86_3 ∧ (reading .r86_3 4 3).rem.toNat ≤ 3) := by decide
theorem witness_ReadRegisterLines :
    ((reading .r84_5 1 1).standsAt .read .r84_5 ∧ addrHeld (reading .r84_5 1 1) = false)
    ∧ (reading .r84_2 1 1).standsAt .read .r84_2 ∧ (reading .r86_1 3 3).standsAt .read .r86_1
    ∧ ((held { reading .r84_4 1 1 with s1Latch := true }).standsAt .read .r84_4
      ∧ (held { reading .r84_4 1 1 with s1Latch := true }).s1Latch = true
      ∧ addrOf RegLayout.stm32 (held (reading .r84_4 1 1)).stat1 = true)
    ∧ ((reading .r68_2 1 1).standsAt .read .r68_2 ∧ addrHeld (reading .r68_2 1 1) = false) := by decide
theorem witness_ReadDataLines :
    ((reading .r84_8 1 1).standsAt .read .r84_8 ∧ addrHeld (reading .r84_8 1 1) = false
      ∧ { reading .r84_8 1 1 with rx := [0xA3] }.rx = 0xA3 :: [])
    ∧ (reading .r85_13 2 1).rx = [] ∧ addrHeld (held (reading .r86_17 3 1)) = true := by decide
theorem witness_ReadPushLines :
    ((reading .r84_9 1 1).standsAt .read .r84_9 ∧ (reading .r84_9 1 1).sink.length < (reading .r84_9 1 1).cfg.sinkCap)
    ∧ exec (.read 0x78 1) { reading .r84_9 1 1 with
      cfg := { Config.standard with sinkCap := 1 }, sink := [0x55] } = .fault .sinkOverrun := ⟨by decide, rfl⟩
theorem witness_ReadSingleCompletes :
    (let s := answering (encode (.read 0x78 1)) [0xA3] (List.replicate 19 .sequencer ++ [.clearStop]);
      s.fsm = .idle ∧ s.upc = .idle ∧ s.cmd = encode (.read 0x78 1) ++ [] ∧ s.cfg.wf = true
      ∧ s.answersAtOnce = true ∧ s.sinkRoom 1 = true ∧ s.rx = 0xA3 :: [])
    ∧ (let s := launching (encode (.read 0x78 1)) [0xA3] 8 11;
      s.fsm = .idle ∧ s.upc = .idle ∧ s.cmd = encode (.read 0x78 1) ++ [] ∧ s.cfg.wf = true
      ∧ s.answersFromLaunch 0x0046 = true ∧ s.sinkRoom 1 = true ∧ s.rx = 0xA3 :: []) := by decide
theorem witness_ReadDoubleCompletes :
    (let s := answering (encode (.read 0x78 2)) [0x01, 0x02] (List.replicate 24 .sequencer ++ [.clearStop]);
      s.fsm = .idle ∧ s.upc = .idle ∧ s.cmd = encode (.read 0x78 2) ++ [] ∧ s.cfg.wf = true
      ∧ s.answersAtOnce = true ∧ s.sinkRoom 2 = true ∧ s.rx = 0x01 :: 0x02 :: [])
    ∧ (let s := launching (encode (.read 0x78 2)) [0x01, 0x02] 8 16;
      s.fsm = .idle ∧ s.upc = .idle ∧ s.cmd = encode (.read 0x78 2) ++ [] ∧ s.cfg.wf = true
      ∧ s.answersFromLaunch 0x0046 = true ∧ s.sinkRoom 2 = true ∧ s.rx = 0x01 :: 0x02 :: []) := by decide
/-- No loop round (N = 3), one (N = 4), and one from a legal launch. -/
theorem witness_ReadBulkCompletes :
    (let s := answering (encode (.read 0x78 3)) [0x11, 0x22, 0x33]
        (List.replicate (4 * (3 : Count).toNat + 13) .sequencer ++ [.clearStop]);
      (3 : Count).toNat = ([] : List Byte).length + 3 ∧ s.fsm = .idle ∧ s.upc = .idle
      ∧ s.cmd = encode (.read 0x78 3) ++ [] ∧ s.cfg.wf = true ∧ s.answersAtOnce = true
      ∧ s.sinkRoom (3 : Count).toNat = true ∧ s.rx = [] ++ [0x11, 0x22, 0x33] ++ [])
    ∧ (let s := answering (encode (.read 0x78 4)) [0xDE, 0xAD, 0xBE, 0xEF]
        (List.replicate (4 * (4 : Count).toNat + 13) .sequencer ++ [.clearStop]);
      (4 : Count).toNat = ([0xDE] : List Byte).length + 3 ∧ s.fsm = .idle ∧ s.upc = .idle
      ∧ s.cmd = encode (.read 0x78 4) ++ [] ∧ s.cfg.wf = true ∧ s.answersAtOnce = true
      ∧ s.sinkRoom (4 : Count).toNat = true ∧ s.rx = [0xDE] ++ [0xAD, 0xBE, 0xEF] ++ [])
    ∧ (let s := launching (encode (.read 0x78 4)) [0xDE, 0xAD, 0xBE, 0xEF] 8 (4 * (4 : Count).toNat + 5);
      (4 : Count).toNat = ([0xDE] : List Byte).length + 3 ∧ s.fsm = .idle ∧ s.upc = .idle
      ∧ s.cmd = encode (.read 0x78 4) ++ [] ∧ s.cfg.wf = true ∧ s.answersFromLaunch 0x0046 = true
      ∧ s.sinkRoom (4 : Count).toNat = true ∧ s.rx = [0xDE] ++ [0xAD, 0xBE, 0xEF] ++ []) := by decide
/-- A READ of one byte at its return line, its byte read and pushed. -/
def returning : State := { reading .r84_12 1 0 with trace := [.dr 0xA3, .push 0xA3] }
theorem returning_inv : returning.Inv := by
  have h : (reading .r84_12 1 0).Inv := reading_inv rfl (by decide) rfl rfl rfl (by simp [readCounts])
  exact ⟨h.control, h.mask, h.counts, h.polls, h.addr, h.result, h.sink⟩
theorem returning_ackInv : returning.ackInv :=
  reading_ackInv (l := .r84_12) (n := 1) (rem := 0)
theorem witness_ReadPostconditions :
    returning.Inv ∧ returning.ackInv ∧ returning.traceInv ∧ returning.fsm = .run ∧ returning.n = 1
    ∧ ∃ t, exec (.read 0x78 1) returning = .next t ∧ t.fsm = .idle ∧ t.status = 0 :=
  ⟨returning_inv, returning_ackInv, ⟨rfl, rfl⟩, rfl, rfl, _, rfl, rfl, rfl⟩
theorem witness_ReadFrame :
    (reading .r85_2 2 2).fsm = .run ∧ (reading .r85_2 2 2).upc ∉ [Label.r85_1, .r85_16, .r106_1]
    ∧ ∃ t, exec (.read 0x78 2) (reading .r85_2 2 2) = .next t := ⟨rfl, by decide, _, rfl⟩

/-! ### Witnesses of hypotheses: WRITE -/

theorem witness_WriteLines :
    ((writing .r95_1 [] 0).standsAt .write .r95_1 ∧ (writing .r95_1 [] 0).n = 0)
    ∧ ((writing .r95_1 [0x0A] 0).standsAt .write .r95_1 ∧ (writing .r95_1 [0x0A] 0).n ≠ 0)
    ∧ (writing .r95_2 [0x0A] 0).standsAt .write .r95_2
    ∧ (writing .r67_1 [0x0A] 0).standsAt .write .r67_1
    ∧ ((writing .r68_2 [0x0A] 0).standsAt .write .r68_2 ∧ addrHeld (writing .r68_2 [0x0A] 0) = false)
    ∧ (writing .r69_1 [0x0A] 0).standsAt .write .r69_1 ∧ (writing .r69_2 [0x0A] 0).standsAt .write .r69_2
    ∧ ((writing .r95_3 [0x0A] 0).standsAt .write .r95_3 ∧ (writing .r95_3 [0x0A] 0).idx.toNat
      < (writing .r95_3 [0x0A] 0).n.toNat)
    ∧ (writing .r95_3 [0x0A] 1).n.toNat ≤ (writing .r95_3 [0x0A] 1).idx.toNat
    ∧ ((writing .r95_4 [0x0A] 0).standsAt .write .r95_4
      ∧ (writing .r95_4 [0x0A] 0).pl[(writing .r95_4 [0x0A] 0).idx.toNat]? = some 0x0A
      ∧ addrHeld (writing .r95_4 [0x0A] 0) = false)
    ∧ addrHeld (held (writing .r95_4 [0x0A] 0)) = true ∧ addrHeld (held (writing .r95_7 [0x0A] 1)) = true
    ∧ (writing .r95_6 [0x0A] 0).standsAt .write .r95_6
    ∧ ((writing .r95_7 [0x0A] 1).standsAt .write .r95_7 ∧ addrHeld (writing .r95_7 [0x0A] 1) = false) := by
  decide
theorem witness_WriteCompletes :
    (let s := answering (encode (.write 0x78 1 [0x01])) [] (List.replicate (4 * (1 : Count).toNat + 12) .sequencer ++ [.clearStop]);
      ([0x01] : List Byte).length = (1 : Count).toNat ∧ 1 ≤ (1 : Count).toNat ∧ s.fsm = .idle ∧ s.upc = .idle
      ∧ s.cmd = encode (.write 0x78 1 [0x01]) ++ [] ∧ s.cfg.wf = true ∧ s.answersAtOnce = true)
    ∧ (let s := launching (encode (.write 0x78 1 [0x01])) [] 7 (4 * (1 : Count).toNat + 5);
      ([0x01] : List Byte).length = (1 : Count).toNat ∧ 1 ≤ (1 : Count).toNat ∧ s.fsm = .idle ∧ s.upc = .idle
      ∧ s.cmd = encode (.write 0x78 1 [0x01]) ++ [] ∧ s.cfg.wf = true ∧ s.answersFromLaunch 0x0046 = true) := by decide
theorem witness_WriteFrame :
    (writing .r95_4 [0x0A] 0).fsm = .run ∧ ∃ t, exec (.write 0x78 1 [0x0A]) (writing .r95_4 [0x0A] 0) = .next t :=
  ⟨rfl, _, rfl⟩

/-! ### Witnesses of hypotheses: errors -/

theorem witness_OversizedReadOverflows :
    (let s := answering (encode (.read 0x78 300)) [] [];
      s.agenda = [] ∧ s.fsm = .idle ∧ s.upc = .idle ∧ s.cmd = encode (.read 0x78 300) ++ []
      ∧ (300 : Count) ≠ 0 ∧ s.cfg.sinkCap < (300 : Count).toNat)
    ∧ ∃ t, exec .genStart { flying .genStart .r67_1 with status := 1 } = .next t ∧ t.status = 1 :=
  ⟨by decide, _, rfl, rfl⟩
theorem witness_InvalidRequests :
    (answering (encode (.read 0x78 0)) [] []).cmd = encode (.read 0x78 0) ++ []
    ∧ (answering (encode (.write 0x78 0 [])) [] []).cmd = encode (.write 0x78 0 []) ++ []
    ∧ (answering (CmdWord.bytes 0xFFFFFFFF) [] []).cmd = CmdWord.bytes 0xFFFFFFFF ++ []
    ∧ (match decodeWord 0xFFFFFFFF with
      | .error why => why = .undefinedOpcode
      | .ok _ => False) := ⟨rfl, rfl, rfl, rfl⟩
/-- READ of two bytes, READ of one byte, and a primitive, each at the last failed poll. -/
theorem witness_TimeoutCleansUp :
    (let s := { reading .r85_7 2 2 with cfg := { Config.standard with pollBound := some 1 } };
      s.standsAt .read .r85_7 ∧ lineOf .read .r85_7 = some (.wait .w8 .r85_8) ∧ s.agenda = []
      ∧ addrHeld s = false ∧ Site.w8.awaited s = false ∧ s.cfg.pollBound = some 1 ∧ 1 ≤ s.k + 1 ∧ s.n = 2)
    ∧ (let s := { reading .r84_7 1 1 with cfg := { Config.standard with pollBound := some 1 } };
      s.standsAt .read .r84_7 ∧ lineOf .read .r84_7 = some (.wait .w6 .r84_8) ∧ addrHeld s = false
      ∧ Site.w6.awaited s = false ∧ s.n ≠ 2)
    ∧ (let s := { flying .writeByte .r70_2 with cfg := { Config.standard with pollBound := some 1 } };
      s.standsAt .writeByte .r70_2 ∧ lineOf .writeByte .r70_2 = some (.wait .w4 .r70_3)
      ∧ addrHeld s = false ∧ Site.w4.awaited s = false) := by decide
theorem witness_ResultWrittenAtDone : ∃ t, exec .genStart (flying .genStart .r67_3) = .next t := ⟨_, rfl⟩
theorem witness_EndRestoresModes :
    returning.Inv ∧ returning.ackInv ∧ returning.fsm = .run
    ∧ ∃ t, exec (.read 0x78 1) returning = .next t ∧ t.fsm = .idle :=
  ⟨returning_inv, returning_ackInv, rfl, _, rfl, rfl⟩

/-! ### Witnesses of hypotheses: invariants and whole-machine rules -/

theorem witness_StepKeepsInv : (reading .r83_1 3 0).Inv ∧ ∃ t, step (reading .r83_1 3 0) = .next t :=
  ⟨reading_entry_inv, _, rfl⟩
theorem witness_StepKeepsAckInv :
    (reading .r83_1 3 0).Inv ∧ (reading .r83_1 3 0).ackInv ∧ (reading .r83_1 3 0).agenda.head? = none
    ∧ ∃ t, step (reading .r83_1 3 0) = .next t := ⟨reading_entry_inv, reading_ackInv, rfl, _, rfl⟩
theorem witness_StepKeepsTraceInv :
    returning.Inv ∧ returning.traceInv ∧ returning.agenda.head? ≠ some .reset ∧ ∃ t, step returning = .next t :=
  ⟨returning_inv, ⟨rfl, rfl⟩, by decide, _, rfl⟩
/-- The reset state goes on; each of the three stops happens in some state. -/
theorem witness_StepProgress :
    State.reset.Inv ∧ (∃ t, step State.reset = .next t)
    ∧ step (held (flying .genStop .r71_1)) = .fault .addrNotCleared
    ∧ step (held (flying .sendAddr .r68_2)) = .fault .addrNotCleared
    ∧ step { reading .r84_9 1 1 with cfg := { Config.standard with sinkCap := 0 } } = .fault .sinkOverrun
    ∧ step { flying .genStart .r67_1 with agenda := [.foreign .stat1] } = .refused .foreignAccess :=
  ⟨reset_inv, ⟨_, rfl⟩, rfl, rfl, rfl, rfl⟩
/-- One state per command. -/
theorem witness_EveryCommandAdvances :
    (flying .genStart .r67_1).Inv
    ∧ ((flying .sendAddr .r68_2).Inv ∧ addrHeld (flying .sendAddr .r68_2) = false) ∧ (flying .clrAddr .r69_1).Inv
    ∧ ((flying .writeByte .r70_1).Inv ∧ addrHeld (flying .writeByte .r70_1) = false)
    ∧ ((flying .genStop .r71_1).Inv ∧ addrHeld (flying .genStop .r71_1) = false)
    ∧ ((reading .r83_1 3 0).Inv ∧ (reading .r83_1 3 0).sink.length < (reading .r83_1 3 0).cfg.sinkCap)
    ∧ (writing .r95_4 [0x0A, 0x0B] 1).Inv :=
  ⟨flying_inv rfl (by decide) rfl (by decide) (by decide),
    ⟨flying_inv rfl (by decide) rfl (by decide) (by decide), rfl⟩,
    flying_inv rfl (by decide) rfl (by decide) (by decide),
    ⟨flying_inv rfl (by decide) rfl (by decide) (by decide), rfl⟩,
    ⟨flying_inv rfl (by decide) rfl (by decide) (by decide), rfl⟩,
    ⟨reading_entry_inv, by decide⟩, writing_inv⟩
theorem witness_RoomAtLaunchPreventsOverrun :
    (State.reset.sinkRoom (255 : Count).toNat = true ∧ ∃ t, exec (.read 0x78 255) State.reset = .next t)
    ∧ ((reading .r83_1 3 0).Inv ∧ (reading .r83_1 3 0).roomInv ∧ ∃ t, step (reading .r83_1 3 0) = .next t) :=
  ⟨⟨by decide, _, rfl⟩, reading_entry_inv, fun _ _ => by simp [reading, flying, State.reset, Config.standard],
    _, rfl⟩
theorem witness_DescriptorConstantWhileRunning :
    (reading .r83_1 3 0).Inv ∧ ∃ t, step (reading .r83_1 3 0) = .next t ∧ t.fsm = .run :=
  ⟨reading_entry_inv, _, rfl, rfl⟩
theorem witness_MaskLinesAndWindows :
    (∃ t, exec (.read 0x78 1) (reading .r84_2 1 1) = .next t ∧ t.im ≠ (reading .r84_2 1 1).im)
    ∧ ((reading .r84_5 1 1).Inv ∧ (reading .r84_5 1 1).standsAt .read .r84_5 ∧ (reading .r84_5 1 1).im = true
      ∧ lineOf .read .r84_5 = some (.ctlSet .stop .r84_6)) :=
  ⟨⟨_, rfl, by decide⟩,
    reading_inv rfl (by decide) rfl rfl rfl (by simp [readCounts, Label.single, Label.double]),
    by decide, rfl, rfl⟩
theorem witness_HandlersHeldOffWhileMasked :
    (∃ t, step { State.reset with agenda := [.irqHandler 1], pending := [1] } = .next t ∧ t.trace = [] ++ [.handler 1])
    ∧ (∃ t, (reading .r84_5 1 1).im = true ∧ step { reading .r84_5 1 1 with
        agenda := [.irqHandler 1], pending := [1] } = .next t ∧ 1 ∈ t.pending)
    ∧ { reading .r84_5 1 1 with agenda := [.irqRequest 1] }.agenda = .irqRequest 1 :: [] :=
  ⟨⟨_, rfl, by decide⟩, ⟨_, rfl, rfl, by decide⟩, rfl⟩
theorem witness_WindowTimelyHoldsControllerOff :
    (reading .r84_5 1 1).Inv ∧ (reading .r84_5 1 1).cfg.wf = true ∧ (reading .r84_5 1 1).cfg.windowTimely = true
    ∧ (reading .r84_5 1 1).upc.insideWindow = true
    ∧ ∃ t, step { reading .r84_5 1 1 with agenda := [.transmit], tx := [0x79] } = .next t ∧ t.tx = [0x79] :=
  ⟨reading_inv rfl (by decide) rfl rfl rfl (by simp [readCounts, Label.single, Label.double]),
    by decide, rfl, rfl, _, rfl, rfl⟩
theorem witness_SequencerReadsNeitherSinkNorPending :
    ∃ t, exec (.read 0x78 1) (reading .r84_9 1 1) = .next t ∧ t.sink = [] ++ [0x00] := ⟨_, rfl, by decide⟩
theorem witness_ResetAbandonsCommand :
    { reading .r84_5 1 1 with agenda := [.reset] }.agenda = .reset :: [] := rfl
theorem witness_ForeignAccessRefusedWhileRunning :
    (flying .genStart .r67_1).fsm = .run ∧ State.reset.fsm = .idle
    ∧ { State.reset with agenda := [.foreign .dataRead] }.agenda = .foreign .dataRead :: [] := ⟨rfl, rfl, rfl⟩

end Sys2Proof.Tests
end

section
/-! PROOFS. What a line and a move of another agent do to BTF, RXNE and DATA, and from it the statement that
WINDOW_TIMELY holds the controller's byte-level agent off inside a masked window (R6, R112). -/

namespace Sys2Proof.Machine

/-! ### BTF and RXNE beside ADDR -/

/-- Two values of STAT1 show the same BTF and the same RXNE. -/
def sameByteFlags (l : RegLayout) (v w : Word) : Prop := btfOf l v = btfOf l w ∧ rxneOf l v = rxneOf l w

/-- Setting ADDR changes no other bit. -/
theorem getLsbD_withAddr {l : RegLayout} {i : Nat} (hi : i ≠ l.addr) (w : Word) :
    (withAddr l w).getLsbD i = w.getLsbD i := by
  by_cases h : i < 16
  · simp [withAddr, getLsbD_or_bitMask _ _ _ h, hi]
  · simp [BitVec.getLsbD_of_ge _ i (Nat.le_of_not_lt h)]

/-- Clearing ADDR changes no other bit. -/
theorem getLsbD_withoutAddr {l : RegLayout} {i : Nat} (hi : i ≠ l.addr) (w : Word) :
    (withoutAddr l w).getLsbD i = w.getLsbD i := by
  by_cases h : i < 16
  · simp [withoutAddr, getLsbD_and_not_bitMask _ _ _ h, hi]
  · simp [BitVec.getLsbD_of_ge _ i (Nat.le_of_not_lt h)]

/-- In a possible layout BTF and RXNE are other bits of STAT1 than ADDR (R31). -/
theorem RegLayout.wf_byteFlags_ne_addr {l : RegLayout} (h : l.wf = true) : l.btf ≠ l.addr ∧ l.rxne ≠ l.addr := by
  simp only [RegLayout.wf, Bool.and_eq_true, decide_eq_true_eq] at h
  obtain ⟨⟨⟨_, hstat1⟩, _⟩, _⟩ := h
  simp only [List.nodup_cons, List.mem_cons, not_or] at hstat1
  obtain ⟨_, ⟨hbtf, hrxne, _⟩, _⟩ := hstat1
  exact ⟨Ne.symm hbtf, Ne.symm hrxne⟩

/-- Setting ADDR keeps BTF and RXNE. -/
theorem sameByteFlags_withAddr {l : RegLayout} (h : l.wf = true) (w : Word) :
    sameByteFlags l (withAddr l w) w :=
  ⟨getLsbD_withAddr (RegLayout.wf_byteFlags_ne_addr h).1 w, getLsbD_withAddr (RegLayout.wf_byteFlags_ne_addr h).2 w⟩

/-- Clearing ADDR keeps BTF and RXNE. -/
theorem sameByteFlags_withoutAddr {l : RegLayout} (h : l.wf = true) (w : Word) :
    sameByteFlags l (withoutAddr l w) w :=
  ⟨getLsbD_withoutAddr (RegLayout.wf_byteFlags_ne_addr h).1 w,
    getLsbD_withoutAddr (RegLayout.wf_byteFlags_ne_addr h).2 w⟩

/-- The contract of ADDR overrides no other flag of the value the controller means to show (R42). -/
theorem sameByteFlags_nextStat1 {s : State} (h : s.cfg.layout.wf = true) (w : Word) :
    sameByteFlags s.cfg.layout (nextStat1 w s) w := by
  unfold nextStat1
  split
  · exact sameByteFlags_withAddr h w
  · split
    · exact ⟨rfl, rfl⟩
    · exact sameByteFlags_withoutAddr h w

/-! ### What a line does to STAT1 and DATA -/

/-- A read of STAT2 clears ADDR in STAT1, or keeps STAT1 (R42). -/
theorem stat2Effect_stat1 (s : State) :
    (stat2Effect s).stat1 = s.stat1 ∨ (stat2Effect s).stat1 = s.stat1Cleared := by
  unfold stat2Effect
  split
  · exact .inr rfl
  · exact .inl rfl

/-- A poll clears ADDR in STAT1, or keeps STAT1. -/
theorem pollOnce_stat1_cases (w : Site) (s : State) :
    (pollOnce w s).stat1 = s.stat1 ∨ (pollOnce w s).stat1 = s.stat1Cleared := by
  unfold pollOnce
  cases w.poll
  · exact .inl rfl
  · exact stat2Effect_stat1 s
  · exact .inl rfl

/-- After its poll a wait leaves STAT1 as it is. -/
theorem waitUntil_stat1 (w : Site) (l : Label) (s : State) : (waitUntil w l s).stat1 = (pollOnce w s).stat1 := by
  rcases waitUntil_cases w l s with ⟨_, h⟩ | ⟨_, _, h⟩ | ⟨_, _, h⟩ | ⟨_, _, h⟩ <;> rw [h] <;> rfl

/-- A line clears ADDR in STAT1, or keeps STAT1. -/
theorem perform_stat1 {ln : Line} {s t : State} (h : perform ln s = .next t) :
    t.stat1 = s.stat1 ∨ t.stat1 = s.stat1Cleared := by
  have ha := perform_addr h
  cases ln
  case wait w l => cases h; rw [waitUntil_stat1]; exact pollOnce_stat1_cases w s
  case stat2 l => rw [ha.1]; exact stat2Effect_stat1 s
  all_goals exact .inl ha.1

/-- A line keeps BTF and RXNE: they are the controller's to change (R19). -/
theorem perform_sameByteFlags {ln : Line} {s t : State} (hl : s.cfg.layout.wf = true)
    (h : perform ln s = .next t) : sameByteFlags s.cfg.layout t.stat1 s.stat1 := by
  rcases perform_stat1 h with h | h <;> rw [h]
  · exact ⟨rfl, rfl⟩
  · exact sameByteFlags_withoutAddr hl _

/-- No line changes the parameters. -/
theorem perform_cfg {ln : Line} {s t : State} (h : perform ln s = .next t) : t.cfg = s.cfg := by
  rcases perform_control h with ⟨_, _, _, _, hc, _⟩ | ⟨_, _, _, _, _, _, hc, _⟩ | ⟨_, _, _, hc, _⟩ <;> exact hc

/-- A read of DATA drains the oldest received byte, if there is one (R40). -/
theorem dataReadEffect_rx (s : State) : (dataReadEffect s).rx = s.rx.drop 1 := by
  unfold dataReadEffect
  split <;> rename_i h <;> simp [h]

/-- The bytes received and the bytes to send after a line. -/
def Line.data (ln : Line) (s t : State) : Prop :=
  match ln with
  | .recv _ => t.rx = s.rx.drop 1 ∧ t.tx = s.tx
  | .sendAddrByte _ => t.rx = s.rx ∧ t.tx = s.tx ++ [addrByte s.cfg.addrForm s.a s.d]
  | .sendData _ => t.rx = s.rx ∧ t.tx = s.tx ++ [s.a]
  | .sendPayload _ => t.rx = s.rx ∧ ∃ v, s.pl[s.idx.toNat]? = some v ∧ t.tx = s.tx ++ [v]
  | _ => t.rx = s.rx ∧ t.tx = s.tx

/-- DATA changes as the line says (R40). -/
theorem perform_data {ln : Line} {s t : State} (h : perform ln s = .next t) : ln.data s t := by
  cases ln <;> simp only [perform, Host.Outcome.next.injEq, returnOk, pushByte_eq_next,
    sendPayloadByte_eq_next, endTimeout_eq_next] at h
  case endTimeout => obtain ⟨w, _, rfl⟩ := h; exact ⟨rfl, rfl⟩
  case push => obtain ⟨_, rfl⟩ := h; exact ⟨rfl, rfl⟩
  case sendPayload => obtain ⟨v, hv, rfl⟩ := h; exact ⟨rfl, v, hv, rfl⟩
  case wait w l => subst h; obtain ⟨_, _, _, _, _, _, _, h, _⟩ := waitUntil_frame w l s; rw [h]; exact ⟨rfl, rfl⟩
  case requireCount => subst h; split <;> exact ⟨rfl, rfl⟩
  case requireCapacity => subst h; split <;> exact ⟨rfl, rfl⟩
  case stat2 => subst h; simp only [readStat2]; rw [stat2Effect_frame]; exact ⟨rfl, rfl⟩
  case recv => subst h; exact ⟨dataReadEffect_rx s, by simp only [dataRead]; rw [dataReadEffect_frame]; rfl⟩
  case ctlSet f l => subst h; cases f <;> exact ⟨rfl, rfl⟩
  case ctlClr f l => subst h; cases f <;> exact ⟨rfl, rfl⟩
  all_goals (subst h; exact ⟨rfl, rfl⟩)

/-! ### No byte completed -/

/-- From `s` to `t` the controller completed no byte: BTF and RXNE are as before, the received bytes were
at most drained, and nothing was enqueued or sent (R112). -/
def noByteCompleted (s t : State) : Prop :=
  btfOf t.cfg.layout t.stat1 = btfOf s.cfg.layout s.stat1
    ∧ rxneOf t.cfg.layout t.stat1 = rxneOf s.cfg.layout s.stat1
    ∧ (∃ drained : List Byte, s.rx = drained ++ t.rx)
    ∧ t.tx = s.tx

/-- No byte is completed when the parameters, BTF, RXNE and the bytes to send are kept and the received
bytes are at most drained. -/
theorem noByteCompleted_of {s t : State} (hc : t.cfg = s.cfg) (hf : sameByteFlags s.cfg.layout t.stat1 s.stat1)
    (hr : t.rx <:+ s.rx) (ht : t.tx = s.tx) : noByteCompleted s t := by
  obtain ⟨hbtf, hrxne⟩ := hf
  obtain ⟨drained, hr⟩ := hr
  exact ⟨by rw [hc, hbtf], by rw [hc, hrxne], ⟨drained, hr.symm⟩, ht⟩

/-- No byte is completed when the parameters, STAT1 and DATA are kept. -/
theorem noByteCompleted_of_same {s t : State} (hc : t.cfg = s.cfg) (h1 : t.stat1 = s.stat1) (hr : t.rx = s.rx)
    (ht : t.tx = s.tx) : noByteCompleted s t :=
  noByteCompleted_of hc (by rw [h1]; exact ⟨rfl, rfl⟩) (by rw [hr]) ht

/-- A line that sends a byte. -/
def Line.sends : Line → Bool
  | .sendAddrByte _ | .sendData _ | .sendPayload _ => true
  | _ => false

/-- A line that sends nothing completes no byte. -/
theorem perform_noByteCompleted {ln : Line} {s t : State} (hl : s.cfg.layout.wf = true) (hn : ln.sends = false)
    (h : perform ln s = .next t) : noByteCompleted s t := by
  have hdata : t.rx <:+ s.rx ∧ t.tx = s.tx := by
    have hd := perform_data h
    cases ln
    case recv => exact ⟨hd.1 ▸ List.drop_suffix 1 s.rx, hd.2⟩
    case sendAddrByte | sendData | sendPayload => cases hn
    all_goals exact ⟨hd.1 ▸ List.suffix_refl _, hd.2⟩
  exact noByteCompleted_of (perform_cfg h) (perform_sameByteFlags hl h) hdata.1 hdata.2

/-! ### Inside a window -/

/-- No line inside a window sends a byte (R84, R85, R86). -/
theorem lineOf_insideWindow_sends {m : Mnemonic} {u : Label} {ln : Line} (h : lineOf m u = some ln)
    (hu : u.insideWindow = true) : ln.sends = false := by
  cases u <;> cases hu
  all_goals (cases m <;> cases h; rfl)

/-- A sequencer that stands inside a window runs (R14). -/
theorem State.controlInv.run_of_insideWindow {s : State} (hc : s.controlInv) (hu : s.upc.insideWindow = true) :
    s.fsm = .run := by
  cases hf : s.fsm
  · rw [hc.1.mp hf] at hu
    cases hu
  · rfl

/-- The sequencer's own step inside a window completes no byte. -/
theorem sequencerStep_noByteCompleted {s t : State} (hc : s.controlInv) (hl : s.cfg.layout.wf = true)
    (hu : s.upc.insideWindow = true) (h : sequencerStep s = .next t) : noByteCompleted s t := by
  have hf := hc.run_of_insideWindow hu
  obtain ⟨_, hline, _⟩ := hc
  obtain ⟨m, ho, hm⟩ := hline hf
  obtain ⟨ln, hln⟩ := Option.isSome_iff_exists.mp hm
  rw [sequencerStep_run hf ho, hln] at h
  exact perform_noByteCompleted hl (lineOf_insideWindow_sends hln hu) (runLine_eq_next.mp h).2

/-- A move of another agent that a closed window does not hold off completes no byte: the byte-level moves
wait, a change of STAT1 keeps BTF and RXNE, and a foreign access is refused while the command runs. -/
theorem agentMove_noByteCompleted {m : Move} {s t : State} (hf : s.fsm = .run) (hl : s.cfg.layout.wf = true)
    (hw : windowClosed s = true) (hm : heldOff m s = false) (h : agentMove m s = .next t) :
    noByteCompleted s t := by
  cases m <;> simp only [agentMove, heldOff, hw, Bool.true_and, Host.Outcome.next.injEq] at h hm
  case receive | transmit => cases hm
  case foreign => simp [foreignAccess, hf] at h
  case stat1 w =>
    subst h
    obtain ⟨hbtf, hrxne⟩ := sameByteFlags_nextStat1 hl w
    simp only [changesByteFlags, Bool.or_eq_false_iff, bne_eq_false_iff_eq] at hm
    exact noByteCompleted_of rfl ⟨hbtf.trans hm.1, hrxne.trans hm.2⟩ (List.suffix_refl _) rfl
  case irqRequest n => subst h; unfold requestIrq; split <;> exact noByteCompleted_of_same rfl rfl rfl rfl
  case irqHandler n => subst h; unfold runHandler; split <;> exact noByteCompleted_of_same rfl rfl rfl rfl
  all_goals (subst h; exact noByteCompleted_of_same rfl rfl rfl rfl)

/-- Settles O57: the sequencer's lines in a window leave BTF and RXNE to the controller and send nothing, and
the moves that would complete a byte are the ones held off. -/
theorem windowTimelyHoldsControllerOff : Obligations.WindowTimelyHoldsControllerOff := by
  unfold Obligations.WindowTimelyHoldsControllerOff
  intro s t hinv hcfg htimely hu h
  have hl : s.cfg.layout.wf = true := (Bool.and_eq_true_iff.mp hcfg).1
  have hw : windowClosed s = true := by rw [windowClosed, htimely, hu]; rfl
  change noByteCompleted s t
  unfold step at h
  cases ht : turn s with
  | sequencer s' =>
    rw [ht, turn_sequencer ht] at h
    exact sequencerStep_noByteCompleted (s := { s with agenda := s'.agenda }) hinv.control hl hu h
  | agent m s' =>
    obtain ⟨hs', _, hm⟩ := turn_agent ht
    rw [ht, hs'] at h
    exact agentMove_noByteCompleted (s := { s with agenda := s'.agenda })
      (hinv.control.run_of_insideWindow hu) hl hw hm h

end Sys2Proof.Machine
end

section
/-! PROOFS. What one step of the machine can do, said once as a case distinction, and what a line does to the
descriptor, to the trace and to the result registers (R12, R13, R16). -/

namespace Sys2Proof.Machine

/-! ### The cases of a step -/

/-- The state after acceptance of the command `i` (R52). -/
def accepted (i : Instr) (s : State) : State :=
  accept i.mnemonic (operandA i) (operandD i) (operandN i) i.payload (firstLine i.mnemonic) s

/-- What the sequencer does when it is its turn (R13, R14, R52, R57). -/
inductive SequencerCase (s t : State) : Prop
  | accepts (i : Instr) (rest : List Byte) (hidle : s.fsm = .idle) (hd : decode s.cmd = .command i rest)
      (ht : t = accepted i { s with cmd := rest })
  | rejects (w : CmdWord) (rest : List Byte) (hidle : s.fsm = .idle)
      (ht : t = acceptIllegal w { s with cmd := rest })
  | waits (hidle : s.fsm = .idle) (ht : t = s)
  | performs (m : Mnemonic) (ln : Line) (hrun : s.fsm = .run) (hop : s.op = m.op)
      (hln : lineOf m s.upc = some ln) (hok : ln.dataPhase s = false ∨ addrHeld s = false)
      (hp : perform ln s = .next t)

/-- The sequencer's step is one of these. -/
theorem sequencerStep_cases {s t : State} (h : sequencerStep s = .next t) : SequencerCase s t := by
  cases hf : s.fsm with
  | idle =>
    rcases sequencerStep_idle hf h with ⟨i, rest, hd, he⟩ | ⟨w, _, rest, _, ht⟩ | ⟨_, _, ht⟩
    · rw [exec_eq_command, command_idle (s := { s with cmd := rest }) hf] at he
      cases he
      exact .accepts i rest hf hd rfl
    · exact .rejects w rest hf ht
    · exact .waits hf ht
  | run =>
    simp only [sequencerStep, hf] at h
    cases hi : inFlight s with
    | none => simp [hi] at h
    | some i =>
      simp only [hi] at h
      rcases exec_next h with ⟨hidle, _⟩ | ⟨_, hop, ln, hln, hok, hp⟩
      · rw [hf] at hidle
        cases hidle
      · exact .performs i.mnemonic ln hf hop hln hok hp

/-- A step is the sequencer's, or a move that stood at the head of the agenda; the agenda moves on. -/
theorem step_cases {s t : State} (h : step s = .next t) :
    ∃ rest, SequencerCase { s with agenda := rest } t
      ∨ ∃ m, s.agenda = m :: rest ∧ agentMove m { s with agenda := rest } = .next t := by
  unfold step at h
  cases ht : turn s with
  | sequencer s' =>
    rw [ht, turn_sequencer ht] at h
    exact ⟨s'.agenda, .inl (sequencerStep_cases h)⟩
  | agent m s' =>
    obtain ⟨hs', ha, _⟩ := turn_agent ht
    rw [ht, hs'] at h
    exact ⟨s'.agenda, .inr ⟨m, ha, h⟩⟩

/-! ### The descriptor -/

/-- No line changes the descriptor and the payload, `x[d]` apart, whether it goes on or ends the command
(R12). -/
theorem perform_descriptor {ln : Line} {s t : State} (h : perform ln s = .next t) :
    t.op = s.op ∧ t.a = s.a ∧ t.n = s.n ∧ t.pl = s.pl := by
  rcases perform_counts h with ⟨_, hend⟩ | ⟨_, hop, ha, hn, hpl, _⟩
  · cases ln <;> simp only [perform, Host.Outcome.next.injEq, returnOk, endTimeout_eq_next] at h
    case ret => subst h; exact ⟨rfl, rfl, rfl, rfl⟩
    case endTimeout => obtain ⟨_, _, rfl⟩ := h; exact ⟨rfl, rfl, rfl, rfl⟩
    case requireCount | requireCapacity => subst h; split <;> exact ⟨rfl, rfl, rfl, rfl⟩
    all_goals cases hend
  · exact ⟨hop, ha, hn, hpl⟩

/-! ### Events and results -/

/-- The event of each line (R8); what a DONE reports and what a read of DATA returns is read off the
state after the line. -/
def Line.events (ln : Line) (s t : State) : List Event :=
  match ln with
  | .ctlSet f _ => [.cw f true]
  | .ctlClr f _ => [.cw f false]
  | .irqMask _ => [.im true]
  | .irqUnmask _ => [.im false]
  | .stat1 _ => [.s1 s.stat1]
  | .stat2 _ => [.s2 s.stat2]
  | .sendAddrByte _ => [.dw (addrByte s.cfg.addrForm s.a s.d)]
  | .sendData _ => [.dw s.a]
  | .sendPayload _ => (s.pl[s.idx.toNat]?.map Event.dw).toList
  | .recv _ => [.dr t.rxb]
  | .push _ => [.push s.rxb]
  | .wait w _ => [w.pollEvent s]
  | .requireCount _ => if s.n = 0 then [.done t.status t.site] else []
  | .requireCapacity _ => if s.cfg.sinkCap < s.n.toNat then [.done t.status t.site] else []
  | .ret | .endTimeout => [.done t.status t.site]
  | .beginRead _ | .beginWrite _ | .selectVariant | .testRem _ _ | .testIdx _ _ | .nextIdx _ => []

/-- A wait appends the event of its poll. -/
theorem waitUntil_trace (w : Site) (l : Label) (s : State) :
    (waitUntil w l s).trace = s.trace ++ [w.pollEvent s] := by
  rw [← pollOnce_trace]
  rcases waitUntil_cases w l s with ⟨_, h⟩ | ⟨_, _, h⟩ | ⟨_, _, h⟩ | ⟨_, _, h⟩ <;> rw [h] <;> rfl

/-- A line appends its event to the trace (R8). -/
theorem perform_trace {ln : Line} {s t : State} (h : perform ln s = .next t) :
    t.trace = s.trace ++ ln.events s t := by
  cases ln <;> simp only [perform, Host.Outcome.next.injEq, returnOk, pushByte_eq_next,
    sendPayloadByte_eq_next, endTimeout_eq_next] at h
  case endTimeout => obtain ⟨_, _, rfl⟩ := h; rfl
  case push => obtain ⟨_, rfl⟩ := h; rfl
  case sendPayload => obtain ⟨v, hv, rfl⟩ := h; simp [Line.events, hv, dataWrite, dataWriteEffect]
  case wait w l => subst h; exact waitUntil_trace w l s
  case requireCount | requireCapacity => subst h; simp only [Line.events]; split <;> simp [raiseNow]
  case stat2 => subst h; simp only [readStat2]; rw [stat2Effect_frame]; rfl
  case recv => subst h; simp only [dataRead]; rw [dataReadEffect_frame]; rfl
  case ctlSet f l => subst h; cases f <;> rfl
  case ctlClr f l => subst h; cases f <;> rfl
  all_goals (subst h; simp [Line.events, setMask, readStat1, stat1Effect, dataWrite, dataWriteEffect])

/-- A line has at most one event (R13, R36). -/
theorem Line.length_events_le (ln : Line) (s t : State) : (ln.events s t).length ≤ 1 := by
  cases ln
  case sendPayload => simp only [Line.events]; cases s.pl[s.idx.toNat]? <;> simp
  case requireCount | requireCapacity => simp only [Line.events]; split <;> simp
  all_goals simp [Line.events]

/-- A line that cannot end the command shows no DONE. -/
theorem Line.isDone_eq_false_of_mem_events {ln : Line} {s t : State} {e : Event} (hend : ln.canEnd = false)
    (he : e ∈ ln.events s t) : e.isDone = false := by
  cases ln <;> simp only [Line.events, List.mem_singleton, List.not_mem_nil, Option.mem_toList,
    Option.map_eq_some_iff] at he
  case wait w l => subst he; unfold Site.pollEvent; cases w.poll <;> rfl
  case sendPayload => obtain ⟨_, _, rfl⟩ := he; rfl
  case ret | endTimeout | requireCount | requireCapacity => cases hend
  all_goals (subst he; rfl)

/-- A line that cannot end the command leaves the run state and the result registers as they are (R16). -/
theorem perform_keeps_result {ln : Line} {s t : State} (hend : ln.canEnd = false) (h : perform ln s = .next t) :
    t.fsm = s.fsm ∧ t.status = s.status ∧ t.site = s.site := by
  cases ln <;> simp only [perform, Host.Outcome.next.injEq, returnOk, pushByte_eq_next,
    sendPayloadByte_eq_next, endTimeout_eq_next] at h
  case ret | endTimeout | requireCount | requireCapacity => cases hend
  case push => obtain ⟨_, rfl⟩ := h; exact ⟨rfl, rfl, rfl⟩
  case sendPayload => obtain ⟨_, _, rfl⟩ := h; exact ⟨rfl, rfl, rfl⟩
  case wait w l =>
    subst h
    obtain ⟨_, _, _, _, _, _, _, h, _⟩ := waitUntil_frame w l s
    rw [h]
    exact ⟨rfl, rfl, rfl⟩
  case stat2 => subst h; simp only [readStat2]; rw [stat2Effect_frame]; exact ⟨rfl, rfl, rfl⟩
  case recv => subst h; simp only [dataRead]; rw [dataReadEffect_frame]; exact ⟨rfl, rfl, rfl⟩
  case ctlSet f l => subst h; cases f <;> exact ⟨rfl, rfl, rfl⟩
  case ctlClr f l => subst h; cases f <;> exact ⟨rfl, rfl, rfl⟩
  all_goals (subst h; exact ⟨rfl, rfl, rfl⟩)

/-- A line ends the command, reports a result and writes it to the result registers, or leaves those as they
are and shows no DONE (R14, R16, R62). -/
theorem perform_reports {ln : Line} {s t : State} (h : perform ln s = .next t) :
    (ln.canEnd = true ∧ t.fsm = .idle ∧ ln.events s t = [.done t.status t.site] ∧ t.resultInv)
      ∨ (t.fsm = s.fsm ∧ t.status = s.status ∧ t.site = s.site ∧ ∀ e ∈ ln.events s t, e.isDone = false) := by
  cases hend : ln.canEnd with
  | false =>
    obtain ⟨hfsm, hstatus, hsite⟩ := perform_keeps_result hend h
    exact .inr ⟨hfsm, hstatus, hsite, fun _ => Line.isDone_eq_false_of_mem_events hend⟩
  | true =>
    cases ln <;> simp only [perform, Host.Outcome.next.injEq, returnOk, endTimeout_eq_next] at h
    case ret => subst h; exact .inl ⟨rfl, rfl, rfl, .inl ⟨rfl, rfl⟩⟩
    case endTimeout =>
      obtain ⟨w, _, rfl⟩ := h
      exact .inl ⟨rfl, rfl, rfl, .inr (.inr (.inl ⟨rfl, w, rfl⟩))⟩
    case requireCount =>
      subst h
      by_cases hn : s.n = 0
      · rw [if_pos hn]
        exact .inl ⟨rfl, rfl, if_pos hn, .inr (.inr (.inr ⟨rfl, rfl⟩))⟩
      · rw [if_neg hn]
        exact .inr ⟨rfl, rfl, rfl, by simp only [Line.events, if_neg hn]; simp⟩
    case requireCapacity =>
      subst h
      by_cases hn : s.cfg.sinkCap < s.n.toNat
      · rw [if_pos hn]
        exact .inl ⟨rfl, rfl, if_pos hn, .inr (.inl ⟨rfl, rfl⟩)⟩
      · rw [if_neg hn]
        exact .inr ⟨rfl, rfl, rfl, by simp only [Line.events, if_neg hn]; simp⟩
    all_goals cases hend

/-! ### What the statements say of results and events -/

/-- Settles O45: acceptance writes no result, and a line writes one exactly with its DONE. -/
theorem resultWrittenAtDone : Obligations.ResultWrittenAtDone := by
  unfold Obligations.ResultWrittenAtDone
  intro i s t h
  rcases exec_next h with ⟨_, rfl⟩ | ⟨_, _, ln, _, _, hp⟩
  · exact .inr ⟨rfl, rfl, [], (List.append_nil _).symm, by simp⟩
  · have htrace := perform_trace hp
    rcases perform_reports hp with ⟨_, _, hdone, hresult⟩ | ⟨_, hstatus, hsite, hquiet⟩
    · exact .inl ⟨hdone ▸ htrace, hresult⟩
    · exact .inr ⟨hstatus, hsite, _, htrace, hquiet⟩

/-- From `s` to `t` at most one event was appended and no parameter changed. -/
def atMostOneEvent (s t : State) : Prop :=
  t.cfg = s.cfg ∧ ∃ es : List Event, t.trace = s.trace ++ es ∧ es.length ≤ 1

/-- No event and no change of the parameters. -/
theorem atMostOneEvent_of_quiet {s t : State} (hc : t.cfg = s.cfg) (ht : t.trace = s.trace) :
    atMostOneEvent s t :=
  ⟨hc, [], by rw [ht, List.append_nil], Nat.zero_le 1⟩

/-- One event and no change of the parameters. -/
theorem atMostOneEvent_of_event {s t : State} {e : Event} (hc : t.cfg = s.cfg)
    (ht : t.trace = s.trace ++ [e]) : atMostOneEvent s t :=
  ⟨hc, [e], ht, Nat.le_refl 1⟩

/-- A step of the sequencer is at most one event: acceptance has none, an illegal word its DONE, a line its
own. -/
theorem SequencerCase.atMostOneEvent {s t : State} (h : SequencerCase s t) : atMostOneEvent s t := by
  cases h with
  | accepts i rest _ _ ht => subst ht; exact atMostOneEvent_of_quiet rfl rfl
  | rejects w rest _ ht => subst ht; exact atMostOneEvent_of_event rfl rfl
  | waits _ ht => subst ht; exact atMostOneEvent_of_quiet rfl rfl
  | performs m ln _ _ _ _ hp => exact ⟨perform_cfg hp, _, perform_trace hp, ln.length_events_le s t⟩

/-- A move of another agent is at most one event, that of a handler. -/
theorem agentMove_atMostOneEvent {m : Move} {s t : State} (h : agentMove m s = .next t) : atMostOneEvent s t := by
  cases m <;> simp only [agentMove, Host.Outcome.next.injEq] at h
  case irqRequest n => subst h; unfold requestIrq; split <;> exact atMostOneEvent_of_quiet rfl rfl
  case irqHandler n =>
    subst h
    unfold runHandler
    split
    · exact atMostOneEvent_of_event rfl rfl
    · exact atMostOneEvent_of_quiet rfl rfl
  case foreign x =>
    unfold foreignAccess at h
    split at h <;> cases h
    rw [foreignEffect_frame]
    exact atMostOneEvent_of_quiet rfl rfl
  all_goals (subst h; exact atMostOneEvent_of_quiet rfl rfl)

/-- Settles O11: each case of a step appends its event, if it has one, and none touches the parameters. -/
theorem oneEventPerStep : Obligations.OneEventPerStep := by
  unfold Obligations.OneEventPerStep
  intro s t h
  obtain ⟨rest, hseq | ⟨m, _, hm⟩⟩ := step_cases h
  · exact hseq.atMostOneEvent
  · exact agentMove_atMostOneEvent (s := { s with agenda := rest }) hm

end Sys2Proof.Machine
end

section
/-! PROOFS. Every step keeps the invariant of the machine: facts about the tables of lines, one lemma per clause for
a line of the command in flight, acceptance, the moves of the other agents, and the step assembled from them (R13,
R14, R22, R40, R42, R62, R65, R82, R95, R111, R113, R130). The reset state is in the invariant (R25). -/

namespace Sys2Proof.Machine

/-! ### Where a line can lead -/

/-- The labels a line at `u` can lead to while its command goes on without a timeout: its targets, and `u` itself
for a wait. -/
def Line.successors (ln : Line) (u : Label) : List Label := if ln.isWait then u :: ln.targets else ln.targets

/-- The label a timeout goes to is a line of the clean-up of R106, or of R104. -/
theorem timeoutLabel_mem (m : Mnemonic) (n : Count) : timeoutLabel m n ∈ [Label.r106_1, .r106_2, .r104_2] := by
  cases m
  case read => simp only [timeoutLabel]; split <;> decide
  all_goals exact List.mem_of_mem_tail (List.mem_of_mem_tail (List.mem_singleton.mpr rfl))

/-- The lines of a timeout are clean-up lines outside every window. -/
theorem timeoutLabel_shape (m : Mnemonic) (n : Count) :
    (timeoutLabel m n).cleanUp = true ∧ (timeoutLabel m n).masked = false := by
  have h := timeoutLabel_mem m n
  revert h
  generalize timeoutLabel m n = l
  revert l
  decide

/-- A command with a wait has the lines of a timeout (R104, R106). -/
theorem lineOf_timeoutLabel {m : Mnemonic} {u l : Label} {w : Site} (h : lineOf m u = some (.wait w l))
    (n : Count) : (lineOf m (timeoutLabel m n)).isSome = true := by
  cases m
  case clrAddr => cases u <;> cases h
  case read => simp only [timeoutLabel]; split <;> rfl
  all_goals rfl

/-- A line that ends the command stands at a clean-up label only when it is the end of a timeout. -/
theorem lineOf_canEnd_cleanUp {m : Mnemonic} {u : Label} {ln : Line} (h : lineOf m u = some ln)
    (hend : ln.canEnd = true) (hto : ln ≠ .endTimeout) : u.cleanUp = false := by
  cases hu : u.cleanUp
  · rfl
  · exfalso
    cases u <;> cases hu
    case true.r104_2.refl => cases m <;> cases h <;> exact hto rfl
    all_goals (cases m <;> cases h; cases hend)

/-- No command has a line at `IDLE`. -/
theorem lineOf_idle (m : Mnemonic) : lineOf m .idle = none := by cases m <;> rfl

/-- The first line of a command is a line of it, no clean-up line, and outside every window. -/
theorem firstLine_shape (m : Mnemonic) : (lineOf m (firstLine m)).isSome = true
    ∧ (firstLine m).cleanUp = false ∧ (firstLine m).masked = false := by
  cases m <;> decide

section Lines

variable {m : Mnemonic} {ln : Line} {s t : State}

/-- Where a performed line leads: it goes on or stays at its wait, it times out, or it ends the command. -/
theorem perform_control_of_lineOf (hop : s.op = m.op) (hln : lineOf m s.upc = some ln)
    (hp : perform ln s = .next t) :
    (t.fsm = s.fsm ∧ t.upc ∈ ln.successors s.upc ∧ t.raising = s.raising)
      ∨ (∃ w l, ln = .wait w l ∧ t.fsm = s.fsm ∧ t.upc = timeoutLabel m s.n ∧ t.raising = some w)
      ∨ (ln.canEnd = true ∧ t.fsm = .idle ∧ t.upc = .idle
        ∧ ((ln = .endTimeout ∧ t.raising = none) ∨ (ln ≠ .endTimeout ∧ t.raising = s.raising))) := by
  rcases perform_control hp with ⟨hu, hf, _, hr, _⟩
    | ⟨w, l, rfl, hf, _, _, _, ⟨hu, hr⟩ | ⟨hr, hu⟩⟩ | ⟨hu, hf, _, _, ⟨rfl, hr⟩ | ⟨hr, hret⟩⟩
  · refine .inl ⟨hf, ?_, hr⟩
    unfold Line.successors
    split
    · exact List.mem_cons_of_mem _ hu
    · exact hu
  · exact .inl ⟨hf, hu ▸ List.mem_cons_self, hr⟩
  · refine .inr (.inl ⟨w, l, rfl, hf, ?_, hr⟩)
    rw [hu, isRead_of_op hop]
    cases m <;> rfl
  · exact .inr (.inr ⟨rfl, hf, hu, .inl ⟨rfl, hr⟩⟩)
  · refine .inr (.inr ?_)
    rcases hret with rfl | ⟨l, rfl | rfl⟩ <;> exact ⟨rfl, hf, hu, .inr ⟨nofun, hr⟩⟩

end Lines

/-- The successors of a line are lines of the same command, and neither lead into nor out of the lines of a
timeout. -/
theorem lineOf_successor {m : Mnemonic} {u l : Label} {ln : Line} (h : lineOf m u = some ln)
    (hl : l ∈ ln.successors u) : (lineOf m l).isSome = true ∧ l.cleanUp = u.cleanUp := by
  unfold Line.successors at hl
  split at hl
  · rcases List.mem_cons.mp hl with rfl | hl
    · exact ⟨by rw [h]; rfl, rfl⟩
    · exact ⟨(lineOf_target h hl).1, (lineOf_target h hl).2.2⟩
  · exact ⟨(lineOf_target h hl).1, (lineOf_target h hl).2.2⟩

/-! ### Control -/

/-- A command in flight that stands at one of its lines. -/
theorem State.controlInv.of_run {t : State} {m : Mnemonic} (hf : t.fsm = .run) (ho : t.op = m.op)
    (hl : (lineOf m t.upc).isSome = true) (hr : t.raising.isSome = t.upc.cleanUp) : t.controlInv := by
  refine ⟨?_, fun _ => ⟨m, ho, hl⟩, hr⟩
  rw [hf]
  refine ⟨nofun, fun hu => ?_⟩
  rw [hu, lineOf_idle] at hl
  cases hl

/-- An idle sequencer with no timeout pending. -/
theorem State.controlInv.of_idle {t : State} (hf : t.fsm = .idle) (hu : t.upc = .idle) (hr : t.raising = none) :
    t.controlInv :=
  ⟨⟨fun _ => hu, fun _ => hf⟩, fun hrun => (by rw [hf] at hrun; cases hrun), by rw [hu, hr]; rfl⟩

/-- While the sequencer is idle no timeout is being ended. -/
theorem State.controlInv.raising_of_idle {s : State} (hc : s.controlInv) (hf : s.fsm = .idle) : s.raising = none := by
  obtain ⟨hidle, _, hr⟩ := hc
  rw [hidle.mp hf] at hr
  exact Option.isNone_iff_eq_none.mp (by rw [← Option.not_isSome, hr]; rfl)

section Performed

variable {m : Mnemonic} {ln : Line} {s t : State}

/-- A line keeps the agreement of run state, label, command and pending timeout. -/
theorem perform_controlInv (hc : s.controlInv) (hrun : s.fsm = .run) (hop : s.op = m.op)
    (hln : lineOf m s.upc = some ln) (hp : perform ln s = .next t) : t.controlInv := by
  have hop' : t.op = m.op := (perform_descriptor hp).1.trans hop
  obtain ⟨_, _, hraise⟩ := hc
  rcases perform_control_of_lineOf hop hln hp with ⟨hf, hu, hr⟩ | ⟨w, l, rfl, hf, hu, hr⟩
    | ⟨hend, hf, hu, ⟨_, hr⟩ | ⟨hto, hr⟩⟩
  · obtain ⟨hline, hclean⟩ := lineOf_successor hln hu
    exact .of_run (hf.trans hrun) hop' hline (by rw [hr, hraise, hclean])
  · refine .of_run (hf.trans hrun) hop' (hu ▸ lineOf_timeoutLabel hln s.n) ?_
    rw [hr, hu, (timeoutLabel_shape m s.n).1]
    rfl
  · exact .of_idle hf hu hr
  · rw [lineOf_canEnd_cleanUp hln hend hto] at hraise
    exact .of_idle hf hu (Option.isNone_iff_eq_none.mp (by rw [hr, ← Option.not_isSome, hraise]; rfl))

/-- The mask after a line (R15). -/
theorem perform_im (hp : perform ln s = .next t) : t.im = ln.imAfter s.im := by
  rcases perform_control hp with ⟨_, _, _, _, _, him⟩ | ⟨_, _, rfl, _, _, him, _⟩
    | ⟨_, _, him, _, ⟨rfl, _⟩ | ⟨_, rfl | ⟨_, rfl | rfl⟩⟩⟩ <;> exact him

/-- A wait or a line that can end the command is no mask line. -/
theorem Line.imAfter_of_wait_or_end (h : ln.isWait = true ∨ ln.canEnd = true) (b : Bool) : ln.imAfter b = b := by
  cases ln
  case irqMask | irqUnmask => rcases h with h | h <;> cases h
  all_goals rfl

/-- A wait stands outside every window, and so does a line that can end the command. -/
theorem lineOf_unmasked {u : Label} (h : lineOf m u = some ln) (hw : ln.isWait = true ∨ ln.canEnd = true) :
    u.masked = false := by
  cases hu : u.masked
  · rfl
  · obtain ⟨hwait, hend⟩ := lineOf_masked_shape h hu
    rw [hwait, hend] at hw
    simp at hw

/-- The windows and the mask lines agree, waits that stay included. -/
theorem lineOf_successor_masked {u l : Label} (h : lineOf m u = some ln) (hl : l ∈ ln.successors u) :
    l.masked = ln.imAfter u.masked := by
  unfold Line.successors at hl
  split at hl
  · rename_i hwait
    rcases List.mem_cons.mp hl with rfl | hl
    · exact (Line.imAfter_of_wait_or_end (.inl hwait) _).symm
    · exact lineOf_masked h hl
  · exact lineOf_masked h hl

/-- A line keeps IM at 1 exactly inside the windows. -/
theorem perform_maskInv (hm : s.maskInv) (hop : s.op = m.op) (hln : lineOf m s.upc = some ln)
    (hp : perform ln s = .next t) : t.maskInv := by
  unfold State.maskInv at hm ⊢
  rw [perform_im hp, hm]
  rcases perform_control_of_lineOf hop hln hp with ⟨_, hu, _⟩ | ⟨w, l, rfl, _, hu, _⟩ | ⟨hend, _, hu, _⟩
  · exact (lineOf_successor_masked hln hu).symm
  · rw [hu, (timeoutLabel_shape m s.n).2]
    exact lineOf_unmasked hln (.inl rfl)
  · rw [hu, lineOf_unmasked hln (.inr hend)]
    exact Line.imAfter_of_wait_or_end (.inr hend) false

end Performed

/-! ### The poll counter -/

/-- What `x[k]` is at the label `l` under POLL_BOUND (R65, R75, R117). -/
def pollCount (bound : Option Nat) (l : Label) (k : Nat) : Prop :=
  match bound with
  | none => k = 0 ∧ l.cleanUp = false
  | some b => 1 ≤ b ∧ if l.cleanUp then k = b else if l.site.isSome then k < b else k = 0

/-- `pollInv` says of `x[k]` what its label and the bound say. -/
theorem pollInv_iff {s : State} (hc : s.controlInv) : s.pollInv ↔ pollCount s.cfg.pollBound s.upc s.k := by
  obtain ⟨_, _, hr⟩ := hc
  unfold State.pollInv pollCount
  cases s.cfg.pollBound with
  | none => rw [← hr, Option.isSome_eq_false_iff, Option.isNone_iff_eq_none]
  | some b => rfl

/-- A count of 0 is right wherever no timeout is being ended. -/
theorem pollCount.zero {bound : Option Nat} {u l : Label} {k : Nat} (h : pollCount bound u k)
    (hl : l.cleanUp = false) : pollCount bound l 0 := by
  unfold pollCount at h ⊢
  cases bound with
  | none => exact ⟨rfl, hl⟩
  | some b =>
    refine ⟨h.1, ?_⟩
    rw [hl, if_neg Bool.false_ne_true]
    split
    · exact h.1
    · rfl

/-- Outside a wait and the end of a timeout the count is 0. -/
theorem pollCount.eq_zero {bound : Option Nat} {u : Label} {k : Nat} (h : pollCount bound u k)
    (hclean : u.cleanUp = false) (hsite : u.site = none) : k = 0 := by
  unfold pollCount at h
  cases bound with
  | none => exact h.1
  | some b => simpa [hclean, hsite] using h.2

/-- At a wait the count is below the bound. -/
theorem pollCount.lt {b : Nat} {u : Label} {k : Nat} {w : Site} (h : pollCount (some b) u k)
    (hclean : u.cleanUp = false) (hsite : u.site = some w) : 1 ≤ b ∧ k < b := by
  simpa [pollCount, hclean, hsite] using h

/-- The count moves unchanged between labels that are no waits, neither into nor out of a clean-up. -/
theorem pollCount.move {bound : Option Nat} {u l : Label} {k : Nat} (h : pollCount bound u k)
    (hclean : l.cleanUp = u.cleanUp) (hsite : u.site = none) : pollCount bound l k := by
  cases hu : u.cleanUp with
  | false => rw [h.eq_zero hu hsite]; exact h.zero (hclean.trans hu)
  | true =>
    unfold pollCount at h ⊢
    rw [hclean]
    cases bound with
    | none => exact h
    | some b => simpa [hu] using h

/-- A line keeps `x[k]` the number of failed polls of the present wait. -/
theorem perform_pollCount {m : Mnemonic} {ln : Line} {s t : State}
    (hk : pollCount s.cfg.pollBound s.upc s.k) (hln : lineOf m s.upc = some ln)
    (hp : perform ln s = .next t) : pollCount t.cfg.pollBound t.upc t.k := by
  rw [perform_cfg hp]
  rcases perform_k hp with ⟨w, l, rfl, hcase⟩ | ⟨hwait, hcase⟩
  · obtain ⟨hsite, hclean, _⟩ := lineOf_wait_site hln
    rcases hcase with ⟨hk', hu⟩ | ⟨hk', _, hu, _⟩ | ⟨b, hb, hlt, hk', hu⟩ | ⟨b, hb, hle, hk', hu⟩
    · rw [hk', hu]
      exact hk.zero ((lineOf_target hln (List.mem_singleton.mpr rfl)).2.2.trans hclean)
    · rw [hk', hu]
      exact hk
    · rw [hb] at hk ⊢
      rw [hk', hu]
      simpa [pollCount, hclean, hsite] using And.intro (hk.lt hclean hsite).1 hlt
    · rw [hb] at hk ⊢
      obtain ⟨hpos, hlt⟩ := hk.lt hclean hsite
      have hclean' : t.upc.cleanUp = true := by rw [hu]; split <;> [split; skip] <;> rfl
      simp only [pollCount, hclean', if_true]
      omega
  · have hsite := lineOf_no_site hln hwait
    rcases hcase with ⟨hu, hk'⟩ | ⟨rfl, hu, hk'⟩ | ⟨hk', hu⟩
    · rw [hu, hk']
      exact hk.zero rfl
    · rw [hu, hk', hk.eq_zero (lineOf_canEnd_cleanUp hln rfl nofun) hsite]
      exact hk.zero rfl
    · rw [hk']
      exact hk.move (lineOf_target hln hu).2.2 hsite

/-! ### ADDR -/

/-- READ and WRITE, the commands that hold an address phase of their own. -/
def isTransaction : Mnemonic → Bool
  | .read | .write => true
  | _ => false

/-- A line that requests a start condition. -/
def Line.requestsStart : Line → Bool
  | .ctlSet .start _ => true
  | _ => false

/-- A line that reads STAT2, as a poll or not, and so may clear ADDR. -/
def Line.readsStat2 : Line → Bool
  | .stat2 _ => true
  | .wait w _ => w.poll == .stat2
  | _ => false

/-- A read of STAT1 that is no poll. -/
def Line.isStat1 : Line → Bool
  | .stat1 _ => true
  | _ => false

/-- A read of STAT2 that is no poll. -/
def Line.isStat2 : Line → Bool
  | .stat2 _ => true
  | _ => false

/-- The wait for ADDR, W3 (R66). -/
def Line.awaitsAddr : Line → Bool
  | .wait .w3 _ => true
  | _ => false

section Performed

variable {m : Mnemonic} {u l : Label} {ln : Line} {s t : State}

/-- A start is due after a request for one, until a byte is written (R40). -/
theorem perform_startDue (hp : perform ln s = .next t) :
    t.startDue = (!ln.sends && (s.startDue || ln.requestsStart)) := by
  have h := perform_addr hp
  cases ln <;> simp only [Line.addr] at h
  case ctlSet f l => rw [h.2.2.1]; cases f <;> simp [Line.sends, Line.requestsStart]
  case wait w l => simp [h.1, Line.sends, Line.requestsStart]
  all_goals simp [h, Line.sends, Line.requestsStart]

/-- A line that reads no STAT2 keeps STAT1, and leaves an address phase outstanding when one was, or when it
writes the byte that begins one (R40, R42). -/
theorem perform_addrSent (hr : ln.readsStat2 = false) (hp : perform ln s = .next t) :
    t.stat1 = s.stat1 ∧ t.addrSent = (s.addrSent || (ln.sends && s.startDue)) := by
  have h := perform_addr hp
  cases ln <;> simp only [Line.addr] at h
  case stat2 => cases hr
  case wait w l =>
    obtain ⟨_, hpoll, _⟩ := h
    cases hw : w.poll <;> simp [hw, Line.readsStat2] at hpoll hr <;> simp [hpoll, Line.sends]
  all_goals simp [h, Line.sends]

/-- A read of STAT1 that is no poll arms the clearing of ADDR (R42). -/
theorem perform_arms (hr : ln.isStat1 = true) (hp : perform ln s = .next t) : t.s1Latch = true := by
  cases ln <;> cases hr
  exact (perform_addr hp).2.2.2

/-- The read of STAT2 that completes the pair clears ADDR (R42). -/
theorem perform_clears (hr : ln.isStat2 = true) (hh : addrHeld s = true) (hl : s.s1Latch = true)
    (hp : perform ln s = .next t) : addrHeld t = false ∧ t.addrSent = false := by
  obtain ⟨hheld, hsent⟩ := stat2Effect_clears hh hl
  cases ln <;> cases hr
  obtain ⟨hstat1, haddr, _⟩ := perform_addr hp
  refine ⟨?_, haddr.trans hsent⟩
  rw [stat2Effect_frame] at hheld
  rw [addrHeld, perform_cfg hp, hstat1]
  exact hheld

/-- The wait for ADDR is left, a timeout apart, only with ADDR held (R65, R66). -/
theorem perform_awaits (hw : ln.awaitsAddr = true) (hu : t.upc ∈ ln.successors s.upc) (hne : t.upc ≠ s.upc)
    (hclean : t.upc.cleanUp = false) (hp : perform ln s = .next t) : addrHeld t = true := by
  cases ln
  case wait w l =>
    cases w <;> cases hw
    have hstat1 := (perform_addrSent rfl hp).1
    rcases List.mem_cons.mp hu with hu | hu
    · exact absurd hu hne
    · have hl := List.mem_singleton.mp hu
      rw [addrHeld, perform_cfg hp, hstat1]
      exact (perform_addr hp).2.2 hl (hl ▸ hne) (hl ▸ hclean)
  all_goals cases hw

/-- A poll of STAT2 completes no pair when STAT1 was not read before it (R67 b). -/
theorem perform_s1Latch_of_w1 {l : Label} (hl : s.s1Latch = false) (hp : perform (.wait .w1 l) s = .next t) :
    t.s1Latch = false :=
  ((perform_addr hp).2.1 hl).2.2

/-- Only a request for a start leads to the wait of GEN_START, which may stay. -/
theorem lineOf_to_w1 (h : lineOf m u = some ln) (hl : .r67_2 ∈ ln.successors u) :
    (∃ next, ln = .ctlSet .start next) ∨ (u = .r67_2 ∧ ∃ next, ln = .wait .w1 next) := by
  have hu : u = .r67_1 ∨ u = .r67_2 := by
    revert hl
    cases m <;> cases u <;> cases h <;> decide
  rcases hu with rfl | rfl
  · cases m <;> cases h <;> exact .inl ⟨_, rfl⟩
  · cases m <;> cases h <;> exact .inr ⟨rfl, _, rfl⟩

/-- The lines before the address byte follow one another from the request for a start on. -/
theorem lineOf_to_beforeAddrByte (hm : isTransaction m = true) (h : lineOf m u = some ln)
    (hl : l ∈ ln.successors u) (hb : l.beforeAddrByte = true) :
    ln.sends = false ∧ (ln.requestsStart = true ∨ u.beforeAddrByte = true) := by
  revert l
  cases m <;> cases hm
  all_goals (cases u <;> cases h <;> decide)

/-- The lines after the address byte follow one another from the write of a byte on, with no request for
another start among them. -/
theorem lineOf_to_afterAddrByte (hm : isTransaction m = true) (h : lineOf m u = some ln)
    (hl : l ∈ ln.successors u) (hb : l.afterAddrByte = true) :
    ln.sends = true ∨ (ln.requestsStart = false ∧ u.afterAddrByte = true) := by
  revert l
  cases m <;> cases hm
  all_goals (cases u <;> cases h <;> decide)

/-- The lines before the clearing follow one another from the wait for ADDR on, no read of STAT2 among
them, and the second read of the pair follows the first. -/
theorem lineOf_to_beforeClearing (hm : isTransaction m = true) (h : lineOf m u = some ln)
    (hl : l ∈ ln.successors u) (hb : l.beforeClearing = true) :
    ln.readsStat2 = false ∧ ((ln.awaitsAddr = true ∧ l ≠ u) ∨ u.beforeClearing = true)
      ∧ (l.clearing = true → ln.isStat1 = true) ∧ l.cleanUp = false := by
  revert l
  cases m <;> cases hm
  all_goals (cases u <;> cases h <;> decide)

/-- The lines after the clearing follow one another from the second read of the pair on, no read of STAT2
among them. -/
theorem lineOf_to_afterClearing (hm : isTransaction m = true) (h : lineOf m u = some ln)
    (hl : l ∈ ln.successors u) (hb : l.afterClearing = true) :
    (ln.isStat2 = true ∧ u.beforeClearing = true ∧ u.clearing = true)
      ∨ (ln.readsStat2 = false ∧ u.afterClearing = true ∧ u.afterAddrByte = true) := by
  revert l
  cases m <;> cases hm
  all_goals (cases u <;> cases h <;> decide)

/-- The opcodes of READ and WRITE are those of the transactions. -/
theorem isTransaction_iff : isTransaction m = true ↔ m.op = Mnemonic.read.op ∨ m.op = Mnemonic.write.op := by
  cases m <;> decide

/-- At `IDLE` and at the lines of a timeout nothing is said of ADDR. -/
theorem State.addrInv.of_label (h : t.upc ∈ [Label.idle, .r106_1, .r106_2, .r104_2]) : t.addrInv := by
  unfold State.addrInv
  revert h
  generalize t.upc = u
  intro h
  have hu : u ≠ .r67_2 ∧ u.beforeAddrByte = false ∧ u.afterAddrByte = false ∧ u.beforeClearing = false
      ∧ u.afterClearing = false := by
    revert u
    decide
  obtain ⟨h1, h2, h3, h4, h5⟩ := hu
  simp [h1, h2, h3, h4, h5]

/-- A line keeps what is known of ADDR: it is due, held, or cleared, as the line's place in the transaction
says (R40, R42, R130). -/
theorem perform_addrInv (ha : s.addrInv) (hrun : s.fsm = .run) (hop : s.op = m.op)
    (hln : lineOf m s.upc = some ln) (hp : perform ln s = .next t) : t.addrInv := by
  rcases perform_control_of_lineOf hop hln hp with ⟨_, hu, _⟩ | ⟨_, _, _, _, hu, _⟩ | ⟨_, _, hu, _⟩
  · obtain ⟨hlatch, hdue, hnone, hheld, hcleared⟩ := ha
    have hop' : t.op = m.op := (perform_descriptor hp).1.trans hop
    simp only [hop, ← isTransaction_iff] at hdue hnone hheld hcleared
    simp only [State.addrInv, hop', ← isTransaction_iff]
    refine ⟨fun _ hu' => ?_, fun _ hm hb => ?_, fun _ hm hb => ?_, fun _ hm hb => ?_, fun _ hm hb => ?_⟩
    · rcases lineOf_to_w1 hln (hu' ▸ hu) with ⟨_, rfl⟩ | ⟨hu1, _, rfl⟩
      · exact (perform_addr hp).2.2.2
      · exact perform_s1Latch_of_w1 (hlatch hrun hu1) hp
    · obtain ⟨hsends, hstart | hbefore⟩ := lineOf_to_beforeAddrByte hm hln hu hb
      · simp [perform_startDue hp, hsends, hstart]
      · simp [perform_startDue hp, hsends, hdue hrun hm hbefore]
    · rcases lineOf_to_afterAddrByte hm hln hu hb with hsends | ⟨hstart, hafter⟩
      · simp [perform_startDue hp, hsends]
      · simp [perform_startDue hp, hstart, hnone hrun hm hafter]
    · obtain ⟨hreads, hfrom, hpair, hclean⟩ := lineOf_to_beforeClearing hm hln hu hb
      refine ⟨?_, fun hc => perform_arms (hpair hc) hp⟩
      rcases hfrom with ⟨hawaits, hne⟩ | hbefore
      · exact perform_awaits hawaits hu hne hclean hp
      · rw [addrHeld, perform_cfg hp, (perform_addrSent hreads hp).1]
        exact (hheld hrun hm hbefore).1
    · rcases lineOf_to_afterClearing hm hln hu hb with ⟨hreads, hbefore, hc⟩ | ⟨hreads, hafter, hafter'⟩
      · obtain ⟨hh, hl⟩ := hheld hrun hm hbefore
        exact perform_clears hreads hh (hl hc) hp
      · obtain ⟨hstat1, hsent⟩ := perform_addrSent hreads hp
        obtain ⟨hh, hs⟩ := hcleared hrun hm hafter
        refine ⟨?_, by simp [hsent, hs, hnone hrun hm hafter']⟩
        rw [addrHeld, perform_cfg hp, hstat1]
        exact hh
  · exact .of_label (List.mem_cons_of_mem _ (hu ▸ timeoutLabel_mem m s.n))
  · exact .of_label (hu ▸ List.mem_cons_self)

end Performed

/-! ### Counts -/

/-- A line that neither moves nor tests a count, nor sets `x[d]`. -/
def Line.keepsCounts : Line → Bool
  | .push _ | .requireCount _ | .requireCapacity _ | .beginRead _ | .beginWrite _ => false
  | .selectVariant | .testRem _ _ | .testIdx _ _ | .nextIdx _ => false
  | _ => true

/-- Such a line keeps the counts and `x[d]`. -/
theorem Line.counts.kept {ln : Line} {s t : State} (hk : ln.keepsCounts = true) (h : ln.counts s t) :
    t.rem = s.rem ∧ t.d = s.d ∧ t.idx = s.idx := by
  cases ln <;> cases hk
  case ret | endTimeout => exact h.elim
  all_goals
    obtain ⟨hrem, hd, hidx, _⟩ := h
    exact ⟨hrem, hd, hidx⟩

/-- The lines of READ that move or test its counts (R81 to R86). -/
theorem lineOf_read_counting {u : Label} {ln : Line} (h : lineOf .read u = some ln) (hk : ln.keepsCounts = false) :
    (u = .r81_1 ∧ ln = .requireCount .r81_2) ∨ (u = .r81_2 ∧ ln = .requireCapacity .r83_1)
      ∨ (u = .r83_1 ∧ ln = .beginRead .r67_1) ∨ (u = .r83_2 ∧ ln = .selectVariant)
      ∨ (u = .r86_3 ∧ ln = .testRem .r86_4 .r86_7) ∨ ∃ l, ln = .push l := by
  cases u <;> cases h <;> cases hk
  all_goals simp

/-- The lines of WRITE that move or test its counts (R95). -/
theorem lineOf_write_counting {u : Label} {ln : Line} (h : lineOf .write u = some ln) (hk : ln.keepsCounts = false) :
    (u = .r95_1 ∧ ln = .requireCount .r95_2) ∨ (u = .r95_2 ∧ ln = .beginWrite .r67_1)
      ∨ (u = .r95_3 ∧ ln = .testIdx .r95_4 .r95_7) ∨ (u = .r95_6 ∧ ln = .nextIdx .r95_3) := by
  cases u <;> cases h <;> cases hk
  all_goals simp

section Counts

variable {u l : Label} {ln : Line} {w : Site} {cap n rem idx : Nat}

/-- A line of READ that keeps the counts leads to lines that know no more of them. -/
theorem readCounts_successor (h : lineOf .read u = some ln) (hk : ln.keepsCounts = true)
    (hl : l ∈ ln.successors u) (hc : readCounts u cap n rem) : readCounts l cap n rem := by
  revert l
  cases u <;> cases h <;> cases hk
  all_goals simp only [Line.successors, Line.targets, Line.isWait, if_true, Bool.false_eq_true, if_false,
    List.mem_cons, List.not_mem_nil, or_false, forall_eq_or_imp, forall_eq, false_implies, implies_true]
  all_goals unfold readCounts at hc ⊢
  case r86_2.refl.refl | r106_1.refl.refl => omega
  all_goals simpa [Label.single, Label.double] using hc

/-- A push of READ finds a byte still to push, and leaves one less (R82). -/
theorem readCounts_push (h : lineOf .read u = some (.push l)) (hc : readCounts u cap n rem) :
    1 ≤ rem ∧ readCounts l cap n (rem - 1) := by
  cases u <;> cases h
  all_goals
    unfold readCounts at hc ⊢
    simp [Label.single, Label.double] at hc ⊢
    omega

/-- A wait of READ that times out leaves the counts in range, and N is 2 exactly where R106.1 runs. -/
theorem readCounts_timeout {n : Count} (h : lineOf .read u = some (.wait w l)) (hc : readCounts u cap n.toNat rem) :
    readCounts (timeoutLabel .read n) cap n.toNat rem := by
  have hrange : 1 ≤ n.toNat ∧ n.toNat ≤ cap ∧ rem ≤ n.toNat := by
    cases u <;> cases h
    all_goals
      unfold readCounts at hc
      simp [Label.single, Label.double] at hc
      omega
  simp only [timeoutLabel]
  split
  · rename_i hn
    exact ⟨by rw [hn]; rfl, hrange.2⟩
  · exact hrange

/-- The variant that N selects starts with all of N to push (R83). -/
theorem readCounts_variantEntry {n : Count} (hpos : 1 ≤ n.toNat) (hcap : n.toNat ≤ cap) (hrem : rem = n.toNat) :
    readCounts (variantEntry (readVariant n)) cap n.toNat rem := by
  unfold readVariant
  split
  · rename_i h1
    subst h1
    simpa [variantEntry, readCounts, Label.single, Label.double, hrem] using hcap
  · split
    · rename_i h2
      subst h2
      simpa [variantEntry, readCounts, Label.single, Label.double, hrem] using hcap
    · rename_i h1 h2
      simp only [← BitVec.toNat_inj] at h1 h2
      exact ⟨by simp at h1 h2; omega, hcap, hrem⟩

/-- A line of WRITE that keeps the counts leads to lines that know no more of them. -/
theorem writeCounts_successor (h : lineOf .write u = some ln) (hk : ln.keepsCounts = true)
    (hl : l ∈ ln.successors u) (hc : writeCounts u n idx) : writeCounts l n idx := by
  revert l
  cases u <;> cases h <;> cases hk
  all_goals simp only [Line.successors, Line.targets, Line.isWait, if_true, Bool.false_eq_true, if_false,
    List.mem_cons, List.not_mem_nil, or_false, forall_eq_or_imp, forall_eq, false_implies, implies_true]
  all_goals
    unfold writeCounts at hc ⊢
    omega

/-- A wait of WRITE that times out leaves the counts in range. -/
theorem writeCounts_timeout (h : lineOf .write u = some (.wait w l)) (hc : writeCounts u n idx) :
    writeCounts .r104_2 n idx := by
  cases u <;> cases h
  all_goals
    unfold writeCounts at hc ⊢
    omega

end Counts

section Performed

variable {ln : Line} {s t : State}

/-- A line of READ keeps what its label says of `x[d]`, `x[n]` and `x[rem]` (R82 to R87). -/
theorem perform_readCounts (hop : s.op = Mnemonic.read.op) (hln : lineOf .read s.upc = some ln)
    (hp : perform ln s = .next t) (hrun : t.fsm = .run) (hd : s.d = .read)
    (hc : readCounts s.upc s.cfg.sinkCap s.n.toNat s.rem.toNat) :
    t.d = .read ∧ readCounts t.upc t.cfg.sinkCap t.n.toNat t.rem.toNat := by
  rcases perform_counts hp with ⟨hidle, _⟩ | ⟨_, _, _, hn, _, hcfg, hcounts⟩
  · rw [hrun] at hidle; cases hidle
  rw [hn, hcfg]
  cases hk : ln.keepsCounts with
  | true =>
    obtain ⟨hrem, hd', _⟩ := hcounts.kept hk
    refine ⟨hd'.trans hd, ?_⟩
    rw [hrem]
    rcases perform_control_of_lineOf hop hln hp with ⟨_, hu, _⟩ | ⟨w, l, rfl, _, hu, _⟩ | ⟨_, hidle, _⟩
    · exact readCounts_successor hln hk hu hc
    · rw [hu]; exact readCounts_timeout hln hc
    · rw [hrun] at hidle; cases hidle
  | false =>
    rcases lineOf_read_counting hln hk with ⟨hu, rfl⟩ | ⟨hu, rfl⟩ | ⟨hu, rfl⟩ | ⟨hu, rfl⟩ | ⟨hu, rfl⟩ | ⟨l, rfl⟩
    · -- R81.1: the count is not 0
      obtain ⟨_, hd', _, hu', hne⟩ := hcounts
      have hpos : 1 ≤ s.n.toNat := by bv_omega
      exact ⟨hd'.trans hd, hu' ▸ hpos⟩
    · -- R81.2: the count fits the sink
      obtain ⟨_, hd', _, hu', hcap⟩ := hcounts
      have hpos : 1 ≤ s.n.toNat := by rwa [hu] at hc
      exact ⟨hd'.trans hd, hu' ▸ ⟨hpos, hcap⟩⟩
    · -- R83: `x[rem] <- x[n]`
      obtain ⟨hrem, hd', _, hu'⟩ := hcounts
      have hrange : 1 ≤ s.n.toNat ∧ s.n.toNat ≤ s.cfg.sinkCap := by rwa [hu] at hc
      exact ⟨hd', by rw [hu', hrem]; exact ⟨hrange.1, hrange.2, rfl⟩⟩
    · -- R83: the variant
      obtain ⟨hrem, hd', _, hu'⟩ := hcounts
      obtain ⟨hpos, hcap, heq⟩ : 1 ≤ s.n.toNat ∧ s.n.toNat ≤ s.cfg.sinkCap ∧ s.rem.toNat = s.n.toNat := by
        rwa [hu] at hc
      exact ⟨hd'.trans hd, hu' ▸ readCounts_variantEntry hpos hcap (hrem ▸ heq)⟩
    · -- R86.3: more than three bytes are left, or three
      obtain ⟨hrem, hd', _, hcase⟩ := hcounts
      obtain ⟨hlow, hhigh, hcap⟩ : 3 ≤ s.rem.toNat ∧ s.rem.toNat ≤ s.n.toNat ∧ s.n.toNat ≤ s.cfg.sinkCap := by
        rwa [hu] at hc
      refine ⟨hd'.trans hd, ?_⟩
      rw [hrem]
      rcases hcase with ⟨hmore, hu'⟩ | ⟨hdone, hu'⟩ <;> rw [hu']
      · exact ⟨hmore, hhigh, hcap⟩
      · exact ⟨by omega, hcap, by omega⟩
    · -- a push
      obtain ⟨hrem, hd', _, hu'⟩ := hcounts
      obtain ⟨hpos, hpush⟩ := readCounts_push hln hc
      have hnat : (s.rem - 1).toNat = s.rem.toNat - 1 := by bv_omega
      exact ⟨hd'.trans hd, by rwa [hu', hrem, hnat]⟩

/-- A line of WRITE keeps what its label says of `x[d]`, `x[n]` and `x[idx]` (R95). -/
theorem perform_writeCounts (hop : s.op = Mnemonic.write.op) (hln : lineOf .write s.upc = some ln)
    (hp : perform ln s = .next t) (hrun : t.fsm = .run) (hd : s.d = .write)
    (hc : writeCounts s.upc s.n.toNat s.idx.toNat) :
    t.d = .write ∧ writeCounts t.upc t.n.toNat t.idx.toNat := by
  rcases perform_counts hp with ⟨hidle, _⟩ | ⟨_, _, _, hn, _, _, hcounts⟩
  · rw [hrun] at hidle; cases hidle
  rw [hn]
  cases hk : ln.keepsCounts with
  | true =>
    obtain ⟨_, hd', hidx⟩ := hcounts.kept hk
    refine ⟨hd'.trans hd, ?_⟩
    rw [hidx]
    rcases perform_control_of_lineOf hop hln hp with ⟨_, hu, _⟩ | ⟨w, l, rfl, _, hu, _⟩ | ⟨_, hidle, _⟩
    · exact writeCounts_successor hln hk hu hc
    · rw [hu]; exact writeCounts_timeout hln hc
    · rw [hrun] at hidle; cases hidle
  | false =>
    rcases lineOf_write_counting hln hk with ⟨hu, rfl⟩ | ⟨hu, rfl⟩ | ⟨hu, rfl⟩ | ⟨hu, rfl⟩
    · -- R95.1: the count is not 0
      obtain ⟨_, hd', _, hu', hne⟩ := hcounts
      have hpos : 1 ≤ s.n.toNat := by bv_omega
      exact ⟨hd'.trans hd, hu' ▸ hpos⟩
    · -- R95.2: `x[idx] <- 0`
      obtain ⟨_, hd', hidx, hu'⟩ := hcounts
      have hpos : 1 ≤ s.n.toNat := by rwa [hu] at hc
      exact ⟨hd', hu' ▸ hidx ▸ ⟨hpos, rfl⟩⟩
    · -- R95.3: a byte is left, or none
      obtain ⟨_, hd', hidx, hcase⟩ := hcounts
      obtain ⟨hpos, hle⟩ : 1 ≤ s.n.toNat ∧ s.idx.toNat ≤ s.n.toNat := by rwa [hu] at hc
      refine ⟨hd'.trans hd, ?_⟩
      rw [hidx]
      rcases hcase with ⟨hmore, hu'⟩ | ⟨hdone, hu'⟩ <;> rw [hu']
      · exact hmore
      · exact ⟨hpos, by omega⟩
    · -- R95.6: the next byte
      obtain ⟨_, hd', hidx, hu'⟩ := hcounts
      have hlt : s.idx.toNat < s.n.toNat := by rwa [hu] at hc
      have hnat : (s.idx + 1).toNat = s.idx.toNat + 1 := by bv_omega
      exact ⟨hd'.trans hd, by rw [hu', hidx, hnat]; exact ⟨by omega, hlt⟩⟩

/-- A line keeps the descriptor and the counts of a transaction (R12, R82, R95). -/
theorem perform_countInv {m : Mnemonic} (hc : s.countInv) (hrun : s.fsm = .run) (hop : s.op = m.op)
    (hln : lineOf m s.upc = some ln) (hp : perform ln s = .next t) : t.countInv := by
  obtain ⟨hop', _, hn, hpl⟩ := perform_descriptor hp
  obtain ⟨hread, hwrite⟩ := hc
  constructor <;> intro hrun' hrow <;> rw [hop'] at hrow
  · obtain rfl := Mnemonic.op_injective (hop.symm.trans hrow)
    obtain ⟨hd, hcounts⟩ := hread hrun hrow
    exact perform_readCounts hrow hln hp hrun' hd hcounts
  · obtain rfl := Mnemonic.op_injective (hop.symm.trans hrow)
    obtain ⟨hd, hlen, hcounts⟩ := hwrite hrun hrow
    obtain ⟨hd', hcounts'⟩ := perform_writeCounts hrow hln hp hrun' hd hcounts
    exact ⟨hd', by rw [hpl, hn, hlen], hcounts'⟩

/-! ### The invariant -/

/-- The result registers hold a result after a line (R62). -/
theorem perform_resultInv (hr : s.resultInv) (hp : perform ln s = .next t) : t.resultInv := by
  rcases perform_result hp with ⟨hstatus, hsite⟩ | h
  · rwa [State.resultInv, hstatus, hsite]
  · exact h

/-- The sink holds at most its capacity after a line (R22). -/
theorem perform_sinkInv (hs : s.sinkInv) (hp : perform ln s = .next t) : t.sinkInv := by
  unfold State.sinkInv at hs ⊢
  rw [perform_cfg hp]
  rcases perform_sink hp with h | ⟨h, hroom⟩ <;> rw [h]
  · exact hs
  · simpa using hroom

/-- A line of the command in flight keeps the invariant. -/
theorem perform_inv {m : Mnemonic} (hinv : s.Inv) (hrun : s.fsm = .run) (hop : s.op = m.op)
    (hln : lineOf m s.upc = some ln) (hp : perform ln s = .next t) : t.Inv where
  control := perform_controlInv hinv.control hrun hop hln hp
  mask := perform_maskInv hinv.mask hop hln hp
  counts := perform_countInv hinv.counts hrun hop hln hp
  polls := (pollInv_iff (perform_controlInv hinv.control hrun hop hln hp)).mpr
    (perform_pollCount ((pollInv_iff hinv.control).mp hinv.polls) hln hp)
  addr := perform_addrInv hinv.addr hrun hop hln hp
  result := perform_resultInv hinv.result hp
  sink := perform_sinkInv hinv.sink hp

end Performed

/-- A bound allows at least one poll (R6). -/
theorem State.pollInv.bound_pos {s : State} (h : s.pollInv) : ∀ b, s.cfg.pollBound = some b → 1 ≤ b := by
  intro b hb
  simp only [State.pollInv, hb] at h
  exact h.1

/-- An idle state is in the invariant when its registers hold a result, its counter is reset and its sink is
within its capacity. -/
theorem State.Inv.of_idle {t : State} (hf : t.fsm = .idle) (hu : t.upc = .idle) (him : t.im = false)
    (hr : t.raising = none) (hk : t.k = 0) (hb : ∀ b, t.cfg.pollBound = some b → 1 ≤ b) (hres : t.resultInv)
    (hsink : t.sinkInv) : t.Inv where
  control := .of_idle hf hu hr
  mask := by rw [State.maskInv, him, hu]; rfl
  counts := ⟨fun hrun => (by rw [hf] at hrun; cases hrun), fun hrun => (by rw [hf] at hrun; cases hrun)⟩
  polls := by
    unfold State.pollInv
    cases hbound : t.cfg.pollBound with
    | none => exact ⟨hk, hr⟩
    | some b => exact ⟨hb b hbound, by rw [hu]; exact hk⟩
  addr := .of_label (hu ▸ List.mem_cons_self)
  result := hres
  sink := hsink

/-- In the invariant an idle sequencer has reset its counter and its mask. -/
theorem State.Inv.idle_facts {s : State} (h : s.Inv) (hidle : s.fsm = .idle) :
    s.upc = .idle ∧ s.im = false ∧ s.raising = none ∧ s.k = 0 := by
  have hu : s.upc = .idle := h.control.1.mp hidle
  have hmask : s.im = s.upc.masked := h.mask
  have hk := (pollInv_iff h.control).mp h.polls
  rw [hu] at hmask hk
  exact ⟨hu, hmask, h.control.raising_of_idle hidle, hk.eq_zero rfl rfl⟩

/-- The agenda and the command port are in no clause of the invariant. -/
theorem State.Inv.withPort {s : State} (h : s.Inv) (moves : List Move) (bytes : List Byte) :
    { s with agenda := moves, cmd := bytes }.Inv :=
  ⟨h.control, h.mask, h.counts, h.polls, h.addr, h.result, h.sink⟩

/-- The first line of a command is none of those at which something is known of ADDR. -/
theorem firstLine_addr (m : Mnemonic) : firstLine m ≠ .r67_2 ∧ (isTransaction m = true →
    ¬(firstLine m).beforeAddrByte = true ∧ ¬(firstLine m).afterAddrByte = true
      ∧ ¬(firstLine m).beforeClearing = true ∧ ¬(firstLine m).afterClearing = true) := by
  cases m <;> decide

/-- A state that stands at the first line of its command knows nothing of ADDR yet. -/
theorem State.addrInv.of_firstLine {t : State} {m : Mnemonic} (ho : t.op = m.op) (hu : t.upc = firstLine m) :
    t.addrInv := by
  obtain ⟨hw1, htrans⟩ := firstLine_addr m
  simp only [State.addrInv, ho, ← isTransaction_iff, hu]
  refine ⟨fun _ h => absurd h hw1, fun _ hm h => ?_, fun _ hm h => ?_, fun _ hm h => ?_, fun _ hm h => ?_⟩
  all_goals obtain ⟨hbyte, hafter, hclear, hcleared⟩ := htrans hm
  · exact absurd h hbyte
  · exact absurd h hafter
  · exact absurd h hclear
  · exact absurd h hcleared

/-- Acceptance latches the direction of a transaction and a payload as long as its count says (R52, R57). -/
theorem accepted_countInv {i : Instr} {s : State} (hwf : i.wf = true) :
    (accepted i s).countInv := by
  constructor <;> intro _ hrow <;> have hm := Mnemonic.op_injective hrow
  · cases i <;> cases hm
    exact ⟨rfl, trivial⟩
  · cases i <;> cases hm
    exact ⟨rfl, beq_iff_eq.mp hwf, trivial⟩

/-- Acceptance of a well-formed command begins it in the invariant (R52). -/
theorem accepted_inv {i : Instr} {s : State} (h : s.Inv) (hidle : s.fsm = .idle) (hwf : i.wf = true) :
    (accepted i s).Inv := by
  obtain ⟨_, him, hr, _⟩ := h.idle_facts hidle
  obtain ⟨hline, hclean, hmasked⟩ := firstLine_shape i.mnemonic
  have hcontrol : (accepted i s).controlInv :=
    .of_run (m := i.mnemonic) rfl rfl hline ((congrArg Option.isSome hr).trans hclean.symm)
  have hk := ((pollInv_iff h.control).mp h.polls).zero hclean
  exact {
    control := hcontrol
    mask := him.trans hmasked.symm
    counts := accepted_countInv hwf
    polls := (pollInv_iff hcontrol).mpr hk
    addr := .of_firstLine (m := i.mnemonic) rfl rfl
    result := h.result
    sink := h.sink }

/-- A step of the sequencer keeps the invariant. -/
theorem SequencerCase.inv {s t : State} (h : SequencerCase s t) (hinv : s.Inv) : t.Inv := by
  cases h with
  | accepts i rest hidle hd ht =>
    rw [ht]
    exact accepted_inv (hinv.withPort s.agenda rest) hidle (decode_wf hd)
  | rejects w rest hidle ht =>
    obtain ⟨_, him, hr, _⟩ := hinv.idle_facts hidle
    subst ht
    exact .of_idle rfl rfl him hr rfl hinv.polls.bound_pos (.inr (.inr (.inr ⟨rfl, rfl⟩))) hinv.sink
  | waits _ ht => rwa [ht]
  | performs m ln hrun hop hln _ hp => exact perform_inv hinv hrun hop hln hp

/-- The controller's change of STAT1 keeps what is known of ADDR: it raises ADDR only while an address phase
is outstanding, and never clears it (R42). -/
theorem setStat1_addrInv {w : Word} {s : State} (h : s.addrInv) : (setStat1 w s).addrInv := by
  obtain ⟨hlatch, hdue, hnone, hheld, hcleared⟩ := h
  refine ⟨hlatch, hdue, hnone, fun hrun hrow hb => ?_, fun hrun hrow ha => ?_⟩
  · obtain ⟨hh, hc⟩ := hheld hrun hrow hb
    exact ⟨addrHeld_setStat1 hh, hc⟩
  · obtain ⟨hh, hs⟩ := hcleared hrun hrow ha
    exact setStat1_keeps_cleared hh hs

/-- While the sequencer is idle nothing is said of ADDR. -/
theorem State.controlInv.addrInv_of_idle {s t : State} (hc : s.controlInv) (hidle : s.fsm = .idle)
    (hu : t.upc = s.upc) : t.addrInv :=
  .of_label (by rw [hu, hc.1.mp hidle]; exact List.mem_cons_self)

/-- A move of another agent keeps the invariant: the controller obeys its contract, other masters move only
while no command runs, and the reset leaves the sequencer idle. -/
theorem agentMove_inv {m : Move} {s t : State} (hinv : s.Inv) (h : agentMove m s = .next t) : t.Inv := by
  cases m <;> simp only [agentMove, Host.Outcome.next.injEq] at h
  case stat1 w =>
    subst h
    exact ⟨hinv.control, hinv.mask, hinv.counts, hinv.polls, setStat1_addrInv hinv.addr, hinv.result, hinv.sink⟩
  case sinkPop =>
    subst h
    exact ⟨hinv.control, hinv.mask, hinv.counts, hinv.polls, hinv.addr, hinv.result,
      (List.drop_sublist 1 s.sink).length_le.trans hinv.sink⟩
  case foreign x =>
    unfold foreignAccess at h
    split at h <;> cases h
    rename_i hidle
    rw [foreignEffect_frame]
    exact ⟨hinv.control, hinv.mask, hinv.counts, hinv.polls, hinv.control.addrInv_of_idle hidle rfl, hinv.result,
      hinv.sink⟩
  case reset =>
    subst h
    exact .of_idle rfl rfl rfl rfl rfl hinv.polls.bound_pos (.inl ⟨rfl, rfl⟩) hinv.sink
  case irqRequest n =>
    subst h
    unfold requestIrq
    split <;> exact ⟨hinv.control, hinv.mask, hinv.counts, hinv.polls, hinv.addr, hinv.result, hinv.sink⟩
  case irqHandler n =>
    subst h
    unfold runHandler
    split <;> exact ⟨hinv.control, hinv.mask, hinv.counts, hinv.polls, hinv.addr, hinv.result, hinv.sink⟩
  all_goals
    subst h
    exact ⟨hinv.control, hinv.mask, hinv.counts, hinv.polls, hinv.addr, hinv.result, hinv.sink⟩

/-- Settles O47: acceptance begins a command in the invariant, every line of it keeps each clause, and so does
every move of another agent. -/
theorem stepKeepsInv : Obligations.StepKeepsInv := by
  unfold Obligations.StepKeepsInv
  intro s t hinv h
  obtain ⟨rest, hseq | ⟨m, _, hm⟩⟩ := step_cases h
  · exact hseq.inv (hinv.withPort rest s.cmd)
  · exact agentMove_inv (hinv.withPort rest s.cmd) hm

/-- Settles O48: the reset state is idle, with an empty sink and the counter, the mask, ACK and POS at the
values that idle states have. -/
theorem resetSatisfiesInv : Obligations.ResetSatisfiesInv := by
  unfold Obligations.ResetSatisfiesInv
  refine ⟨.of_idle rfl rfl rfl rfl rfl (by decide) (.inl ⟨rfl, rfl⟩) (Nat.zero_le _), ?_, ?_, ?_⟩
  · exact ⟨nofun, fun _ _ _ => rfl, nofun, fun _ _ => rfl⟩
  · exact ⟨rfl, rfl⟩
  · exact nofun

end Sys2Proof.Machine
end

section
/-! PROOFS. ACK and POS follow the line of the command in flight, so every command ends with ACK 1, POS 0 and
IM 0; IM is written by the mask lines alone; the descriptor is constant while a command runs (R12, R15, R21,
R106, R111). -/

namespace Sys2Proof.Machine

/-! ### ACK and POS -/

/-- ACK and POS are as the label says, R106 apart: its lines restore what they find (R84 to R86, R106). -/
def modesAt (l : Label) (ack pos : Bool) : Bool :=
  (l == .r106_1 || l == .r106_2 || ack == !l.ackCleared) && (l == .r106_1 || pos == l.posSet)

/-- `ackInv` says of ACK and POS what the label says. -/
theorem ackInv_iff (s : State) : s.ackInv ↔ modesAt s.upc s.ack s.pos = true := by
  unfold State.ackInv modesAt
  by_cases h1 : s.upc = .r106_1
  · simp [h1, Label.ackCleared, Label.posSet]
  · by_cases h2 : s.upc = .r106_2
    · simp [h2, Label.ackCleared, Label.posSet]
    · cases s.upc.ackCleared <;> cases s.upc.posSet <;> simp [h1, h2]

/-- ACK after a line. -/
def Line.ackAfter (ln : Line) (b : Bool) : Bool :=
  match ln with
  | .ctlSet .ack _ => true
  | .ctlClr .ack _ => false
  | _ => b

/-- POS after a line. -/
def Line.posAfter (ln : Line) (b : Bool) : Bool :=
  match ln with
  | .ctlSet .pos _ => true
  | .ctlClr .pos _ => false
  | _ => b

section Performed

variable {m : Mnemonic} {u l : Label} {ln : Line} {s t : State}

/-- ACK and POS are written by the lines that name them (R17). -/
theorem perform_ack_pos (hp : perform ln s = .next t) : t.ack = ln.ackAfter s.ack ∧ t.pos = ln.posAfter s.pos := by
  have h := perform_modes hp
  cases ln
  case ctlSet f l => cases f <;> exact h
  case ctlClr f l => cases f <;> exact h
  all_goals exact h

/-- The lines that write ACK and POS stand where the labels say that they change. -/
theorem lineOf_successor_modes {ack pos : Bool} (h : lineOf m u = some ln) (hl : l ∈ ln.successors u)
    (hu : modesAt u ack pos = true) : modesAt l (ln.ackAfter ack) (ln.posAfter pos) = true := by
  revert ack pos
  revert l
  cases m <;> cases u <;> cases h <;> decide

/-- Where a command ends ACK is 1 and POS is 0. -/
theorem lineOf_canEnd_modes {ack pos : Bool} (h : lineOf m u = some ln) (hend : ln.canEnd = true)
    (hu : modesAt u ack pos = true) : ln.ackAfter ack = true ∧ ln.posAfter pos = false := by
  revert ack pos
  cases m <;> cases u <;> cases h <;> cases hend <;> decide

/-- Only a READ of two bytes waits with POS set, and only a READ with ACK cleared. -/
theorem lineOf_wait_modes {w : Site} {next : Label} {ack pos : Bool} (h : lineOf m u = some (.wait w next))
    (hu : modesAt u ack pos = true) : pos = u.posSet ∧ (m ≠ .read → ack = true ∧ pos = false) := by
  revert ack pos
  cases m <;> cases u <;> cases h <;> decide

/-- POS is set for N = 2 only (R85). -/
theorem readCounts_posSet {cap n rem : Nat} (hpos : u.posSet = true) (hc : readCounts u cap n rem) : n = 2 := by
  cases u <;> cases hpos
  all_goals
    unfold readCounts at hc
    simp [Label.single, Label.double] at hc
    omega

/-- A timeout goes where R106 restores what is not restored yet. -/
theorem timeoutLabel_modes {w : Site} {next : Label} {n : Count} {cap rem : Nat} {ack pos : Bool}
    (h : lineOf m u = some (.wait w next)) (hc : m = .read → readCounts u cap n.toNat rem)
    (hu : modesAt u ack pos = true) : modesAt (timeoutLabel m n) ack pos = true := by
  obtain ⟨hpos, hother⟩ := lineOf_wait_modes h hu
  by_cases hm : m = .read
  · subst hm
    simp only [timeoutLabel]
    split
    · rfl
    · rename_i hn
      have hclear : u.posSet = false := by
        cases hset : u.posSet
        · rfl
        · have := readCounts_posSet hset (hc rfl)
          exact absurd (BitVec.toNat_inj.mp this) hn
      rw [hpos, hclear]
      rfl
  · obtain ⟨rfl, rfl⟩ := hother hm
    cases m
    case read => exact absurd rfl hm
    all_goals rfl

/-- A line keeps ACK and POS as its label says. -/
theorem perform_ackInv (hcount : s.countInv) (ha : s.ackInv) (hrun : s.fsm = .run) (hop : s.op = m.op)
    (hln : lineOf m s.upc = some ln) (hp : perform ln s = .next t) : t.ackInv := by
  rw [ackInv_iff] at ha ⊢
  obtain ⟨hack, hpos⟩ := perform_ack_pos hp
  rw [hack, hpos]
  rcases perform_control_of_lineOf hop hln hp with ⟨_, hu, _⟩ | ⟨w, l, rfl, _, hu, _⟩ | ⟨hend, _, hu, _⟩
  · exact lineOf_successor_modes hln hu ha
  · rw [hu]
    exact timeoutLabel_modes hln (fun hm => (hcount.1 hrun (hm ▸ hop)).2) ha
  · obtain ⟨h1, h2⟩ := lineOf_canEnd_modes hln hend ha
    rw [hu, h1, h2]
    rfl

end Performed

/-- While the sequencer is idle ACK is 1 and POS is 0. -/
theorem State.ackInv.idle {s : State} (ha : s.ackInv) (hu : s.upc = .idle) : s.ack = true ∧ s.pos = false := by
  rw [ackInv_iff, hu] at ha
  revert ha
  cases s.ack <;> cases s.pos <;> decide

/-- A step of the sequencer keeps ACK and POS as the label says. -/
theorem SequencerCase.ackInv {s t : State} (h : SequencerCase s t) (hinv : s.Inv) (ha : s.ackInv) : t.ackInv := by
  cases h with
  | accepts i rest hidle _ ht =>
    obtain ⟨hack, hpos⟩ := ha.idle (hinv.idle_facts hidle).1
    subst ht
    rw [ackInv_iff]
    change modesAt (firstLine i.mnemonic) s.ack s.pos = true
    rw [hack, hpos]
    cases i.mnemonic <;> rfl
  | rejects w rest hidle ht =>
    obtain ⟨hack, hpos⟩ := ha.idle (hinv.idle_facts hidle).1
    subst ht
    rw [ackInv_iff]
    change modesAt .idle s.ack s.pos = true
    rw [hack, hpos]
    rfl
  | waits _ ht => rwa [ht]
  | performs m ln hrun hop hln _ hp => exact perform_ackInv hinv.counts ha hrun hop hln hp

/-- A move of another agent keeps the label, ACK and POS, unless it is a write of CTRL or the reset. -/
theorem agentMove_keeps_modes {m : Move} {s t : State} (hreset : m ≠ .reset)
    (hctl : ∀ f b, m ≠ .foreign (.ctlWrite f b)) (h : agentMove m s = .next t) :
    t.upc = s.upc ∧ t.ack = s.ack ∧ t.pos = s.pos := by
  cases m <;> simp only [agentMove, Host.Outcome.next.injEq] at h
  case reset => exact absurd rfl hreset
  case irqRequest => subst h; unfold requestIrq; split <;> exact ⟨rfl, rfl, rfl⟩
  case irqHandler => subst h; unfold runHandler; split <;> exact ⟨rfl, rfl, rfl⟩
  case foreign x =>
    unfold foreignAccess at h
    split at h <;> cases h
    cases x
    case ctlWrite f b => exact absurd rfl (hctl f b)
    case stat2 => rw [foreignEffect, stat2Effect_frame]; exact ⟨rfl, rfl, rfl⟩
    case dataRead => rw [foreignEffect, dataReadEffect_frame]; exact ⟨rfl, rfl, rfl⟩
    all_goals exact ⟨rfl, rfl, rfl⟩
  all_goals
    subst h
    exact ⟨rfl, rfl, rfl⟩

/-- Settles O49: the lines that write ACK and POS stand where the labels say so, a timeout goes to the line of
R106 that restores them, and no other agent but those excluded writes CTRL. -/
theorem stepKeepsAckInv : Obligations.StepKeepsAckInv := by
  unfold Obligations.StepKeepsAckInv
  intro s t hinv ha hagenda h
  obtain ⟨rest, hseq | ⟨m, hhead, hm⟩⟩ := step_cases h
  · exact hseq.ackInv (hinv.withPort rest s.cmd) ha
  · obtain ⟨hreset, hctl⟩ := hagenda m (by rw [hhead]; rfl)
    obtain ⟨hu, hack, hpos⟩ := agentMove_keeps_modes hreset hctl hm
    rw [ackInv_iff] at ha ⊢
    rwa [hu, hack, hpos]

/-- Settles O46: the line that ends the command leaves the sequencer idle in both invariants, and those say
what the three modes are while it is idle. -/
theorem endRestoresModes : Obligations.EndRestoresModes := by
  unfold Obligations.EndRestoresModes
  intro i s t hinv ha hrun h hidle
  rcases exec_next h with ⟨hidle', _⟩ | ⟨_, hop, ln, hln, _, hp⟩
  · rw [hrun] at hidle'; cases hidle'
  · obtain ⟨hu, him, _⟩ := (perform_inv hinv hrun hop hln hp).idle_facts hidle
    obtain ⟨hack, hpos⟩ := (perform_ackInv hinv.counts ha hrun hop hln hp).idle hu
    exact ⟨hack, hpos, him⟩

/-! ### The mask -/

/-- Settles O56: only the mask lines change IM, and no line of a window is a wait or can end the command. -/
theorem maskLinesAndWindows : Obligations.MaskLinesAndWindows := by
  unfold Obligations.MaskLinesAndWindows
  constructor
  · intro i s t h hne
    rcases exec_next h with ⟨_, rfl⟩ | ⟨_, _, ln, hln, _, hp⟩
    · exact absurd rfl hne
    · have him := perform_im hp
      have htrace := perform_trace hp
      cases ln
      case irqMask => exact ⟨by rw [htrace, him]; rfl, _, by rw [hln, him]; rfl⟩
      case irqUnmask => exact ⟨by rw [htrace, him]; rfl, _, by rw [hln, him]; rfl⟩
      all_goals exact absurd him hne
  · intro m s ln hinv _ him hln
    have hmask : s.im = s.upc.masked := hinv.mask
    obtain ⟨hwait, hend⟩ := lineOf_masked_shape hln (hmask ▸ him)
    refine ⟨?_, ?_, ?_, ?_⟩
    · rintro w l rfl; cases hwait
    · rintro rfl; cases hend
    · rintro rfl; cases hend
    · exact fun l => ⟨fun h => (by subst h; cases hend), fun h => (by subst h; cases hend)⟩

/-! ### The descriptor -/

/-- A command that is no transaction has no line that sets `x[d]`. -/
theorem lineOf_keepsCounts {m : Mnemonic} {u : Label} {ln : Line} (hm : isTransaction m = false)
    (h : lineOf m u = some ln) : ln.keepsCounts = true := by
  cases m <;> cases hm
  all_goals (cases u <;> cases h <;> rfl)

/-- A transaction in flight has the direction of its row (R55). -/
theorem State.countInv.direction {s t : State} {m : Mnemonic} (hs : s.countInv) (ht : t.countInv)
    (hrun : s.fsm = .run) (hrun' : t.fsm = .run) (hop : s.op = m.op) (hop' : t.op = m.op)
    (hm : isTransaction m = true) : t.d = s.d := by
  cases m <;> cases hm
  · exact (ht.1 hrun' hop').1.trans (hs.1 hrun hop).1.symm
  · exact (ht.2 hrun' hop').1.trans (hs.2 hrun hop).1.symm

/-- A line that does not end the command keeps the whole descriptor: READ and WRITE set the `x[d]` that
acceptance latched (R12, R52). -/
theorem perform_direction {m : Mnemonic} {ln : Line} {s t : State} (hc : s.countInv) (hrun : s.fsm = .run)
    (hrun' : t.fsm = .run) (hop : s.op = m.op) (hln : lineOf m s.upc = some ln) (hp : perform ln s = .next t) :
    t.d = s.d := by
  cases hm : isTransaction m with
  | true =>
    have hop' := (perform_descriptor hp).1.trans hop
    exact hc.direction (perform_countInv hc hrun hop hln hp) hrun hrun' hop hop' hm
  | false =>
    rcases perform_counts hp with ⟨hidle, _⟩ | ⟨_, _, _, _, _, _, hcounts⟩
    · rw [hrun'] at hidle; cases hidle
    · exact (hcounts.kept (lineOf_keepsCounts hm hln)).2.1

/-- A move of another agent leaves the descriptor of a command that stays in flight. -/
theorem agentMove_descriptor {m : Move} {s t : State} (hrun : s.fsm = .run) (hrun' : t.fsm = .run)
    (h : agentMove m s = .next t) : t.op = s.op ∧ t.a = s.a ∧ t.d = s.d ∧ t.n = s.n ∧ t.pl = s.pl := by
  cases m <;> simp only [agentMove, Host.Outcome.next.injEq] at h
  case reset => subst h; cases hrun'
  case foreign => simp [foreignAccess, hrun] at h
  case irqRequest => subst h; unfold requestIrq; split <;> exact ⟨rfl, rfl, rfl, rfl, rfl⟩
  case irqHandler => subst h; unfold runHandler; split <;> exact ⟨rfl, rfl, rfl, rfl, rfl⟩
  all_goals
    subst h
    exact ⟨rfl, rfl, rfl, rfl, rfl⟩

/-- Settles O54: of the steps from Run to Run only a line of READ or WRITE writes a part of the descriptor, and
it writes the value that stands there. -/
theorem descriptorConstantWhileRunning : Obligations.DescriptorConstantWhileRunning := by
  unfold Obligations.DescriptorConstantWhileRunning
  intro s t hinv hrun hrun' h
  obtain ⟨rest, hseq | ⟨m, _, hm⟩⟩ := step_cases h
  · cases hseq with
    | accepts _ _ hidle | rejects _ _ hidle | waits hidle => cases hrun.symm.trans hidle
    | performs m ln _ hop hln _ hp =>
      obtain ⟨hop', ha, hn, hpl⟩ := perform_descriptor hp
      exact ⟨hop', ha, perform_direction (s := { s with agenda := rest }) hinv.counts hrun hrun' hop hln hp, hn, hpl⟩
  · exact agentMove_descriptor (s := { s with agenda := rest }) hrun hrun' hm

end Sys2Proof.Machine
end

section
/-! PROOFS. What `exec` does at a line: the return lines, the reads of DATA, that every line may be performed where
its stops do not hold, and that no line reads the sink, the pending requests or the command port (R13, R22, R52,
R82, R130). -/

namespace Sys2Proof.Machine

/-- A command in flight performs its line, a data-phase action with ADDR held apart (R13, R130). -/
theorem exec_at {i : Instr} {s : State} {ln : Line} (hrun : s.fsm = .run) (hop : s.op = i.mnemonic.op)
    (hln : lineOf i.mnemonic s.upc = some ln) : exec i s = runLine ln s := by
  rw [exec_run hrun hop, hln]
  rfl

/-! ### Whose command a step runs -/

/-- The registers that hold a command's descriptor name that command (R11, R12). -/
theorem inFlight_of_descriptor {s : State} {i : Instr} (hop : s.op = i.mnemonic.op) (ha : s.a = operandA i)
    (hd : s.d = operandD i) (hn : s.n = operandN i) (hpl : s.pl = i.payload) : inFlight s = some i := by
  unfold inFlight
  rw [hop, ha, hd, hn, hpl]
  cases i <;> rfl

/-- Settles O7: a step that is the sequencer's is `sequencerStep`, and that fetches while idle and takes the
command from the registers while running. -/
theorem stepRunsDecodedCommand : Obligations.StepRunsDecodedCommand := by
  unfold Obligations.StepRunsDecodedCommand
  intro s s' i ht
  have hstep : step s = sequencerStep s' := by rw [step, ht]
  rw [hstep]
  refine ⟨fun rest hidle hd => ?_, fun hrun hop ha hd hn hpl => ?_⟩
  · rw [sequencerStep_of_idle hidle, fetch, hd]
  · simp only [sequencerStep, hrun, inFlight_of_descriptor hop ha hd hn hpl]

/-! ### Return lines -/

/-- Settles O19: each of these labels is a `return`. -/
theorem returnLines : Obligations.ReturnLines := by
  unfold Obligations.ReturnLines
  rintro i s hmem ⟨hrun, hop, _⟩
  have hln : lineOf i.mnemonic s.upc = some .ret := by
    revert hmem
    generalize i.mnemonic = m, s.upc = u
    simp only [List.mem_cons, Prod.mk.injEq, List.not_mem_nil, or_false]
    rintro (⟨rfl, rfl⟩ | ⟨rfl, rfl⟩ | ⟨rfl, rfl⟩ | ⟨rfl, rfl⟩ | ⟨rfl, rfl⟩ | ⟨rfl, rfl⟩ | ⟨rfl, rfl⟩ | ⟨rfl, rfl⟩
      | ⟨rfl, rfl⟩)
    all_goals rfl
  rw [exec_at hrun hop hln]
  rfl

/-! ### Reads of DATA -/

/-- The reads of DATA stand where R84 to R86 have them. -/
theorem readLine_recv {u l : Label} (h : (u, l) ∈ [(Label.r84_8, Label.r84_9), (.r85_10, .r85_11), (.r85_13, .r85_14),
    (.r86_5, .r86_6), (.r86_10, .r86_11), (.r86_13, .r86_14), (.r86_17, .r86_18)]) :
    lineOf .read u = some (.recv l) := by
  simp only [List.mem_cons, Prod.mk.injEq, List.not_mem_nil, or_false] at h
  rcases h with ⟨rfl, rfl⟩ | ⟨rfl, rfl⟩ | ⟨rfl, rfl⟩ | ⟨rfl, rfl⟩ | ⟨rfl, rfl⟩ | ⟨rfl, rfl⟩ | ⟨rfl, rfl⟩ <;> rfl

/-- A read of DATA takes the oldest received byte (R40). -/
theorem dataRead_of_received {s : State} {v : Byte} {rest : List Byte} (h : s.rx = v :: rest) :
    dataRead s = { s with rx := rest, rxb := v, s1Latch := false, trace := s.trace ++ [.dr v] } := by
  simp only [dataRead, dataReadEffect, nextByte, h]
  rfl

/-- With no byte received a read of DATA takes a free value (R18, U4). -/
theorem dataRead_of_empty {s : State} (h : s.rx = []) : dataRead s = { s with
    rxb := Config.freeByte s.draws, draws := s.draws + 1, s1Latch := false,
    trace := s.trace ++ [.dr (Config.freeByte s.draws)] } := by
  simp only [dataRead, dataReadEffect, nextByte, h]
  rfl

/-- Settles O31: at these labels stands a read of DATA, which is a data-phase action. -/
theorem readDataLines : Obligations.ReadDataLines := by
  unfold Obligations.ReadDataLines
  rintro a n s l ⟨hrun, hop, _⟩ hmem
  rw [exec_at (i := .read a n) hrun hop (readLine_recv hmem)]
  refine ⟨fun v rest haddr hrx => ?_, fun haddr hrx => ⟨Config.freeByte s.draws, ?_⟩, fun haddr => ?_⟩
  · rw [runLine_of_addr_cleared haddr, perform, dataRead_of_received hrx]
    rfl
  · rw [runLine_of_addr_cleared haddr, perform, dataRead_of_empty hrx]
    rfl
  · simp [runLine, Line.dataPhase, haddr]

/-! ### Every line may be performed -/

/-- A line goes on but for a push without room, a payload byte that is not there, and the end of a timeout that
is not pending. -/
theorem perform_goes_on {ln : Line} {s : State} (hpush : ∀ l, ln = .push l → s.sink.length < s.cfg.sinkCap)
    (hsend : ∀ l, ln = .sendPayload l → s.idx.toNat < s.pl.length)
    (hend : ln = .endTimeout → s.raising.isSome = true) : ∃ t, perform ln s = .next t := by
  cases ln
  case push l => exact ⟨_, pushByte_eq_next.mpr ⟨hpush l rfl, rfl⟩⟩
  case sendPayload l =>
    exact ⟨_, sendPayloadByte_eq_next.mpr ⟨_, List.getElem?_eq_getElem (hsend l rfl), rfl⟩⟩
  case endTimeout =>
    obtain ⟨w, hw⟩ := Option.isSome_iff_exists.mp (hend rfl)
    exact ⟨_, endTimeout_eq_next.mpr ⟨w, hw, rfl⟩⟩
  all_goals exact ⟨_, rfl⟩

/-- The data-phase actions, given whether a start is due (R40, R130). -/
def Line.dataPhaseWhen (due : Bool) (ln : Line) : Bool :=
  match ln with
  | .ctlSet f _ => f == .stop
  | .sendAddrByte _ => !due
  | .sendData _ | .sendPayload _ | .recv _ => true
  | .wait w _ => w.dataPhase
  | _ => false

/-- Of the state a data-phase action depends on the start that is due alone. -/
theorem dataPhase_eq_when (ln : Line) (s : State) : ln.dataPhase s = ln.dataPhaseWhen s.startDue := by
  cases ln <;> rfl

section Labels

variable {m : Mnemonic} {u l : Label} {ln : Line}

/-- Only READ pushes (R82). -/
theorem lineOf_push (h : lineOf m u = some (.push l)) : m = .read := by
  cases m <;> cases u <;> cases h <;> rfl

/-- Only WRITE sends payload, at one line (R95). -/
theorem lineOf_sendPayload (h : lineOf m u = some (.sendPayload l)) : m = .write ∧ u = .r95_4 := by
  cases m <;> cases u <;> cases h
  exact ⟨rfl, rfl⟩

/-- A timeout ends at a clean-up line (R104). -/
theorem lineOf_endTimeout (h : lineOf m u = some .endTimeout) : u.cleanUp = true := by
  cases m <;> cases u <;> cases h <;> rfl

/-- The data-phase actions of READ and WRITE stand after the clearing of ADDR, the byte of the address phase
apart. -/
theorem lineOf_dataPhase_transaction {due : Bool} (hm : isTransaction m = true) (h : lineOf m u = some ln)
    (hd : ln.dataPhaseWhen due = true) : u.afterClearing = true ∨ (u.beforeAddrByte = true ∧ due = false) := by
  revert due
  cases m <;> cases hm
  all_goals (cases u <;> cases h <;> decide)

/-- The data-phase actions of the five primitives: those of WRITE_BYTE and GEN_STOP, and the byte of SEND_ADDR
that follows no start. -/
theorem lineOf_dataPhase_primitive {due : Bool} (hm : isTransaction m = false) (h : lineOf m u = some ln)
    (hd : ln.dataPhaseWhen due = true) : (m = .writeByte ∨ m = .genStop) ∨ (m = .sendAddr ∧ due = false) := by
  revert due
  cases m <;> cases hm
  all_goals (cases u <;> cases h <;> decide)

end Labels

/-- In the invariant no data-phase action of READ or WRITE meets an ADDR that is held (R130). -/
theorem State.addrInv.cleared_at_dataPhase {m : Mnemonic} {ln : Line} {s : State} (ha : s.addrInv)
    (hrun : s.fsm = .run) (hop : s.op = m.op) (hm : isTransaction m = true) (hln : lineOf m s.upc = some ln)
    (hd : ln.dataPhase s = true) : addrHeld s = false := by
  rw [dataPhase_eq_when] at hd
  obtain ⟨_, hdue, _, _, hcleared⟩ := ha
  simp only [hop, ← isTransaction_iff] at hdue hcleared
  rcases lineOf_dataPhase_transaction hm hln hd with hafter | ⟨hbefore, hnone⟩
  · exact (hcleared hrun hm hafter).1
  · rw [hdue hrun hm hbefore] at hnone
    cases hnone

/-- Settles O52: the invariant gives the command a line, a timeout its site and a payload byte its place, and
keeps ADDR cleared at the data-phase lines of READ and WRITE; the hypotheses do the rest. -/
theorem everyCommandAdvances : Obligations.EveryCommandAdvances := by
  unfold Obligations.EveryCommandAdvances
  intro i s hinv hrun hop hroom hcleared hsend
  obtain ⟨_, hline, hraise⟩ := hinv.control
  obtain ⟨m, hop', hsome⟩ := hline hrun
  obtain rfl := Mnemonic.op_injective (hop.symm.trans hop')
  obtain ⟨ln, hln⟩ := Option.isSome_iff_exists.mp hsome
  have hok : ln.dataPhase s = false ∨ addrHeld s = false := by
    cases hd : ln.dataPhase s with
    | false => exact .inl rfl
    | true =>
      right
      cases hm : isTransaction i.mnemonic with
      | true => exact hinv.addr.cleared_at_dataPhase hrun hop hm hln hd
      | false =>
        rw [dataPhase_eq_when] at hd
        rcases lineOf_dataPhase_primitive hm hln hd with hprim | ⟨hrow, hnone⟩
        · exact hcleared hprim
        · exact hsend hrow hnone
  obtain ⟨t, hp⟩ : ∃ t, perform ln s = .next t := by
    refine perform_goes_on ?_ ?_ ?_
    · rintro l rfl
      exact hroom (lineOf_push hln)
    · rintro l rfl
      obtain ⟨hrow, hu⟩ := lineOf_sendPayload hln
      obtain ⟨_, hlen, hcounts⟩ := hinv.counts.2 hrun (hop.trans (by rw [hrow]))
      rw [hu] at hcounts
      exact hlen ▸ hcounts
    · rintro rfl
      rw [hraise, lineOf_endTimeout hln]
  refine ⟨t, ?_, perform_descriptor hp⟩
  rw [exec_at hrun hop hln]
  exact runLine_eq_next.mpr ⟨hok, hp⟩

/-! ### What the sequencer does not read -/

/-- The state with another sink, other pending requests and other bytes at the command port. -/
def State.withPorts (sink : List Byte) (pending : List Nat) (cmd : List Byte) (s : State) : State :=
  { s with sink := sink, pending := pending, cmd := cmd }

/-- The bytes a line pushes (R82). -/
def Line.pushed (ln : Line) (s : State) : List Byte :=
  match ln with
  | .push _ => [s.rxb]
  | _ => []

section Ports

variable (k : List Byte) (p : List Nat) (c : List Byte)

/-- A read of STAT2 reads none of the three. -/
theorem stat2Effect_withPorts (s : State) : stat2Effect (s.withPorts k p c) = (stat2Effect s).withPorts k p c := by
  unfold stat2Effect
  change (if s.s1Latch && addrHeld s then _ else _) = _
  split <;> rfl

/-- A read of DATA reads none of the three. -/
theorem dataRead_withPorts (s : State) : dataRead (s.withPorts k p c) = (dataRead s).withPorts k p c := by
  cases h : s.rx with
  | nil => rw [dataRead_of_empty h, dataRead_of_empty (s := s.withPorts k p c) h]; rfl
  | cons v rest => rw [dataRead_of_received h, dataRead_of_received (s := s.withPorts k p c) h]; rfl

/-- A poll reads none of the three. -/
theorem pollOnce_withPorts (w : Site) (s : State) :
    pollOnce w (s.withPorts k p c) = (pollOnce w s).withPorts k p c := by
  unfold pollOnce
  cases w.poll with
  | stat1 => cases w <;> rfl
  | stat2 => simp only [readStat2, stat2Effect_withPorts]; rfl
  | stopField => rfl

/-- A failed poll counts without them. -/
theorem pollFailed_withPorts (w : Site) (s : State) :
    pollFailed w (s.withPorts k p c) = (pollFailed w s).withPorts k p c := by
  unfold pollFailed
  change (match s.cfg.pollBound with | none => _ | some b => if b ≤ s.k + 1 then _ else _) = _
  cases s.cfg.pollBound with
  | none => rfl
  | some b => dsimp only; split <;> rfl

/-- A wait reads none of the three. -/
theorem waitUntil_withPorts (w : Site) (l : Label) (s : State) :
    waitUntil w l (s.withPorts k p c) = (waitUntil w l s).withPorts k p c := by
  have hw : w.awaited (s.withPorts k p c) = w.awaited s := by cases w <;> rfl
  unfold waitUntil
  rw [hw, pollOnce_withPorts, pollFailed_withPorts]
  split <;> rfl

/-- A line does the same whatever the three hold, and appends what it pushes to the sink, if that has room. -/
theorem perform_withPorts {ln : Line} {s t : State} (hp : perform ln s = .next t)
    (hroom : ∀ l, ln = .push l → k.length < s.cfg.sinkCap) :
    perform ln (s.withPorts k p c) = .next (t.withPorts (k ++ ln.pushed s) p c) := by
  cases ln <;> simp only [perform, Host.Outcome.next.injEq, returnOk, pushByte_eq_next,
    sendPayloadByte_eq_next, endTimeout_eq_next, Line.pushed, List.append_nil] at hp ⊢
  case push l => obtain ⟨_, rfl⟩ := hp; exact ⟨hroom l rfl, rfl⟩
  case sendPayload l => obtain ⟨v, hv, rfl⟩ := hp; exact ⟨v, hv, rfl⟩
  case endTimeout => obtain ⟨w, hw, rfl⟩ := hp; exact ⟨w, hw, rfl⟩
  case wait w l => subst hp; exact waitUntil_withPorts k p c w l s
  case stat2 l => subst hp; simp only [readStat2, stat2Effect_withPorts]; rfl
  case recv l => subst hp; rw [dataRead_withPorts]; rfl
  case requireCount l => subst hp; change (if s.n = 0 then _ else _) = _; split <;> rfl
  case requireCapacity l => subst hp; change (if s.cfg.sinkCap < s.n.toNat then _ else _) = _; split <;> rfl
  case ctlSet f l => subst hp; cases f <;> rfl
  case ctlClr f l => subst hp; cases f <;> rfl
  all_goals (subst hp; rfl)

/-- Whether a line is a data-phase action depends on none of the three. -/
theorem dataPhase_withPorts (ln : Line) (s : State) : ln.dataPhase (s.withPorts k p c) = ln.dataPhase s := by
  cases ln <;> rfl

end Ports

/-- The sink after a line holds what it pushed. -/
theorem perform_pushed {ln : Line} {s t : State} (hp : perform ln s = .next t) :
    t.sink = s.sink ++ ln.pushed s := by
  have hroom : ∀ l, ln = .push l → s.sink.length < s.cfg.sinkCap := by
    rintro l rfl
    exact (pushByte_eq_next.mp hp).1
  have h : perform ln s = .next (t.withPorts (s.sink ++ ln.pushed s) s.pending s.cmd) :=
    perform_withPorts s.sink s.pending s.cmd hp hroom
  rw [hp, Host.Outcome.next.injEq] at h
  rw [h]
  rfl

/-- Settles O58: acceptance and every line commute with a change of the sink, the pending requests and the
command port; the sink receives what the line pushes. -/
theorem sequencerReadsNeitherSinkNorPending : Obligations.SequencerReadsNeitherSinkNorPending := by
  unfold Obligations.SequencerReadsNeitherSinkNorPending
  intro i s t h
  rcases exec_next h with ⟨hidle, rfl⟩ | ⟨hrun, hop, ln, hln, hok, hp⟩
  · refine ⟨[], (List.append_nil _).symm, fun k p c _ => ?_⟩
    change exec i (s.withPorts k p c) = _
    rw [exec_eq_command, command_idle (s := s.withPorts k p c) hidle, List.append_nil]
    rfl
  · refine ⟨ln.pushed s, perform_pushed hp, fun k p c hroom => ?_⟩
    change exec i (s.withPorts k p c) = _
    rw [exec_at (s := s.withPorts k p c) hrun hop hln]
    refine runLine_eq_next.mpr ⟨?_, perform_withPorts k p c hp (by rintro l rfl; exact hroom)⟩
    rw [dataPhase_withPorts]
    exact hok

end Sys2Proof.Machine
end

section
/-! PROOFS. READ pushes exactly the bytes it reads, in order, and N of them with those still to come; no other command
reads DATA or pushes (R33, R74, R82, R92, R95). -/

namespace Sys2Proof.Machine

/-! ### Bytes and lines -/

/-- A line that reads DATA. -/
def Line.isRecv : Line → Bool
  | .recv _ => true
  | _ => false

/-- A line that pushes. -/
def Line.isPush : Line → Bool
  | .push _ => true
  | _ => false

/-- A line that sets `x[rem]` to `x[n]`. -/
def Line.isBeginRead : Line → Bool
  | .beginRead _ => true
  | _ => false

/-- The lines of READ before `x[rem] <- x[n]` (R81, R83). -/
def Label.beforeEntry : Label → Bool
  | .r81_1 | .r81_2 | .r83_1 => true
  | _ => false

section Lines

variable {m : Mnemonic} {u l : Label} {ln : Line} {s t : State}

/-- Only READ reads DATA (R74, R95). -/
theorem lineOf_recv (h : lineOf m u = some (.recv l)) : m = .read := by
  cases m <;> cases u <;> cases h <;> rfl

/-- A byte is held from the read of DATA to its push, and at no other line of READ (R82). -/
theorem lineOf_successor_holdsByte (h : lineOf .read u = some ln) (hl : l ∈ ln.successors u) :
    u.holdsByte = ln.isPush ∧ l.holdsByte = ln.isRecv := by
  revert l
  cases u <;> cases h <;> decide

/-- The lines before the entry lead on to the entry, which leads behind it, and no later line leads back. -/
theorem lineOf_successor_beforeEntry (h : lineOf .read u = some ln) (hl : l ∈ ln.successors u) :
    (ln.isBeginRead = true → u.beforeEntry = true ∧ l.beforeEntry = false)
      ∧ (ln.isBeginRead = false → l.beforeEntry = u.beforeEntry)
      ∧ (ln.isPush = true → u.beforeEntry = false) := by
  revert l
  cases u <;> cases h <;> decide

/-- No wait stands before the entry or while a byte is held. -/
theorem lineOf_wait_bytes {w : Site} (h : lineOf .read u = some (.wait w l)) :
    u.beforeEntry = false ∧ u.holdsByte = false := by
  cases u <;> cases h <;> exact ⟨rfl, rfl⟩

/-- The lines of a timeout stand behind the entry and hold no byte. -/
theorem timeoutLabel_bytes (m : Mnemonic) (n : Count) :
    (timeoutLabel m n).beforeEntry = false ∧ (timeoutLabel m n).holdsByte = false := by
  have h := timeoutLabel_mem m n
  revert h
  generalize timeoutLabel m n = l
  revert l
  decide

/-- A line that neither reads DATA nor pushes leaves the bytes of the command and `x[rxb]` as they are. -/
theorem Line.bytes.kept (hr : ln.isRecv = false) (hp : ln.isPush = false) (h : ln.bytes s t) :
    readsOf (commandEvents t.trace) = readsOf (commandEvents s.trace)
      ∧ pushesOf (commandEvents t.trace) = pushesOf (commandEvents s.trace) ∧ t.rxb = s.rxb := by
  cases ln
  case recv => cases hr
  case push => cases hp
  case ret | endTimeout => exact h.elim
  all_goals exact h

/-- A line that neither pushes nor sets `x[rem]` keeps it. -/
theorem Line.counts.rem_kept (hp : ln.isPush = false) (hb : ln.isBeginRead = false) (h : ln.counts s t) :
    t.rem = s.rem := by
  cases ln
  case push => cases hp
  case beginRead => cases hb
  case ret | endTimeout => exact h.elim
  all_goals exact h.1

end Lines

/-! ### The invariant, on plain values -/

/-- What `traceInv` says of a READ at the label `l` with the bytes read, the bytes pushed, `x[rxb]`, `x[rem]` and
`x[n]`. -/
def readBytes (l : Label) (reads pushes : List Byte) (rxb : Byte) (rem n : Nat) : Prop :=
  reads = pushes ++ (if l.holdsByte then [rxb] else [])
    ∧ (if l.beforeEntry then pushes = [] else pushes.length + rem = n)

/-- `traceInv` of a READ in flight. -/
theorem traceInv_read {s : State} (hrun : s.fsm = .run) (hop : s.op = Mnemonic.read.op) :
    s.traceInv ↔ readBytes s.upc (readsOf (commandEvents s.trace)) (pushesOf (commandEvents s.trace)) s.rxb
      s.rem.toNat s.n.toNat := by
  have hb : (s.upc = .r81_1 ∨ s.upc = .r81_2 ∨ s.upc = .r83_1) ↔ s.upc.beforeEntry = true := by
    cases s.upc <;> decide
  simp only [State.traceInv, hrun, hop, and_self, if_true, hb, readBytes]

/-- `traceInv` while no READ is in flight. -/
theorem traceInv_other {s : State} (h : ¬(s.fsm = .run ∧ s.op = Mnemonic.read.op)) :
    s.traceInv ↔ readsOf (commandEvents s.trace) = [] ∧ pushesOf (commandEvents s.trace) = [] := by
  simp only [State.traceInv, if_neg h]

/-- After a DONE there are no events of a present command. -/
theorem State.traceInv.of_done {t : State} (hidle : t.fsm = .idle) (h : commandEvents t.trace = []) : t.traceInv := by
  rw [traceInv_other (fun hread => by rw [hidle] at hread; cases hread.1), h]
  exact ⟨rfl, rfl⟩

/-! ### The invariant, line by line -/

section Performed

variable {m : Mnemonic} {ln : Line} {s t : State}

/-- A line of READ that does not end the command keeps the bytes read and pushed in step. -/
theorem perform_readBytes (hop : s.op = Mnemonic.read.op) (hln : lineOf .read s.upc = some ln)
    (hp : perform ln s = .next t) (hrun : t.fsm = .run) (hbytes : ln.bytes s t)
    (hc : readCounts s.upc s.cfg.sinkCap s.n.toNat s.rem.toNat)
    (hb : readBytes s.upc (readsOf (commandEvents s.trace)) (pushesOf (commandEvents s.trace)) s.rxb
      s.rem.toNat s.n.toNat) :
    readBytes t.upc (readsOf (commandEvents t.trace)) (pushesOf (commandEvents t.trace)) t.rxb
      t.rem.toNat t.n.toNat := by
  obtain ⟨_, _, _, hn, _, _, hcounts⟩ := (perform_counts hp).resolve_left fun h => by
    rw [hrun] at h; cases h.1
  obtain ⟨hreads, hpushes⟩ := hb
  unfold readBytes
  rw [hn]
  rcases perform_control_of_lineOf hop hln hp with ⟨_, hu, _⟩ | ⟨w, l, rfl, _, hu, _⟩ | ⟨_, hidle, _⟩
  · obtain ⟨hheld, hheld'⟩ := lineOf_successor_holdsByte hln hu
    obtain ⟨hbegin, hstay, hlate⟩ := lineOf_successor_beforeEntry hln hu
    rw [hheld] at hreads
    rw [hheld']
    cases ln
    case recv l =>
      obtain ⟨hr, hq⟩ := hbytes
      rw [hstay rfl, hr, hq, hcounts.1, hreads]
      exact ⟨by simp [Line.isPush, Line.isRecv], hpushes⟩
    case push l =>
      obtain ⟨hr, hq⟩ := hbytes
      obtain ⟨hpos, _⟩ := readCounts_push hln hc
      have hrem : (s.rem - 1).toNat = s.rem.toNat - 1 := by bv_omega
      rw [hlate rfl] at hpushes
      rw [hstay rfl, hlate rfl, hr, hq, hcounts.1, hrem, hreads]
      refine ⟨by simp [Line.isPush, Line.isRecv], ?_⟩
      simp at hpushes ⊢
      omega
    case beginRead l =>
      obtain ⟨hr, hq, _⟩ := hbytes.kept rfl rfl
      obtain ⟨hu, hu'⟩ := hbegin rfl
      rw [hu] at hpushes
      rw [hu', hr, hq, hcounts.1, hreads]
      exact ⟨rfl, by simp [show pushesOf (commandEvents s.trace) = [] from hpushes]⟩
    all_goals
      obtain ⟨hr, hq, _⟩ := hbytes.kept rfl rfl
      rw [hstay rfl, hr, hq, hcounts.rem_kept rfl rfl]
      exact ⟨hreads, hpushes⟩
  · obtain ⟨hr, hq, _⟩ := hbytes
    obtain ⟨hentry, hheld⟩ := lineOf_wait_bytes hln
    obtain ⟨hentry', hheld'⟩ := timeoutLabel_bytes .read s.n
    rw [hentry] at hpushes
    rw [hheld] at hreads
    rw [hu, hentry', hheld', hr, hq, hcounts.1]
    exact ⟨hreads, hpushes⟩
  · rw [hrun] at hidle; cases hidle

/-- A line of another command neither reads DATA nor pushes, nor does it become a READ. -/
theorem perform_otherBytes (hm : m ≠ .read) (hop : s.op = m.op) (hln : lineOf m s.upc = some ln)
    (hp : perform ln s = .next t) (hbytes : ln.bytes s t) (ht : s.traceInv) : t.traceInv := by
  have hne : m.op ≠ Mnemonic.read.op := fun h => hm (Mnemonic.op_injective h)
  rw [traceInv_other (fun h => hne (hop ▸ h.2))] at ht
  rw [traceInv_other (fun h => hne (hop ▸ (perform_descriptor hp).1 ▸ h.2))]
  have hrecv : ln.isRecv = false := by
    cases ln
    case recv => exact absurd (lineOf_recv hln) hm
    all_goals rfl
  have hpush : ln.isPush = false := by
    cases ln
    case push => exact absurd (lineOf_push hln) hm
    all_goals rfl
  obtain ⟨hr, hq, _⟩ := hbytes.kept hrecv hpush
  rwa [hr, hq]

/-- A line keeps what the trace shows of the bytes read and pushed. -/
theorem perform_traceInv (hinv : s.Inv) (ht : s.traceInv) (hrun : s.fsm = .run) (hop : s.op = m.op)
    (hln : lineOf m s.upc = some ln) (hp : perform ln s = .next t) : t.traceInv := by
  rcases perform_reports hp with ⟨_, hidle, hdone, _⟩ | ⟨hf, _⟩
  · exact .of_done hidle (by rw [perform_trace hp, hdone, commandEvents_snoc]; rfl)
  have hrun' : t.fsm = .run := hf.trans hrun
  have hbytes : ln.bytes s t := (perform_bytes hp).resolve_left fun h => by
    rw [hrun'] at h; cases h.1
  by_cases hm : m = .read
  · subst hm
    rw [traceInv_read hrun hop] at ht
    rw [traceInv_read hrun' ((perform_descriptor hp).1.trans hop)]
    exact perform_readBytes hop hln hp hrun' hbytes (hinv.counts.1 hrun hop).2 ht
  · exact perform_otherBytes hm hop hln hp hbytes ht

end Performed

/-! ### The invariant, step by step -/

/-- Acceptance begins a command with no byte read or pushed. -/
theorem accepted_traceInv {i : Instr} {s : State} (hidle : s.fsm = .idle) (ht : s.traceInv) :
    (accepted i s).traceInv := by
  rw [traceInv_other (fun h => by rw [hidle] at h; cases h.1)] at ht
  obtain ⟨hr, hq⟩ := ht
  by_cases hm : i.mnemonic = .read
  · rw [traceInv_read rfl (congrArg Mnemonic.op hm)]
    refine ⟨?_, ?_⟩
    · change readsOf (commandEvents s.trace) = pushesOf (commandEvents s.trace)
        ++ (if (firstLine i.mnemonic).holdsByte then _ else _)
      rw [hr, hq, hm]
      rfl
    · change if (firstLine i.mnemonic).beforeEntry then pushesOf (commandEvents s.trace) = [] else _
      rw [hm]
      exact hq
  · rw [traceInv_other (fun h => hm (Mnemonic.op_injective h.2))]
    exact ⟨hr, hq⟩

/-- A step of the sequencer keeps the bytes read and pushed in step. -/
theorem SequencerCase.traceInv {s t : State} (h : SequencerCase s t) (hinv : s.Inv) (ht : s.traceInv) :
    t.traceInv := by
  cases h with
  | accepts i rest hidle _ h => rw [h]; exact accepted_traceInv hidle ht
  | rejects w rest _ h => rw [h]; exact .of_done rfl (commandEvents_snoc _ _)
  | waits _ h => rwa [h]
  | performs m ln hrun hop hln _ hp => exact perform_traceInv hinv ht hrun hop hln hp

/-- A handler's event is no read of DATA and no push, and begins no command. -/
theorem runHandler_traceInv {n : Nat} {s : State} (ht : s.traceInv) : (runHandler n s).traceInv := by
  unfold runHandler
  split
  · have hr : ∀ tr, readsOf (commandEvents (tr ++ [.handler n])) = readsOf (commandEvents tr) := by
      intro tr; simp [Event.isDone, readsOf]
    have hq : ∀ tr, pushesOf (commandEvents (tr ++ [.handler n])) = pushesOf (commandEvents tr) := by
      intro tr; simp [Event.isDone, pushesOf]
    unfold State.traceInv
    simp only [State.log_trace, hr, hq]
    exact ht
  · exact ht

/-- A move of another agent, the reset apart, leaves the trace or appends a handler's event, and touches nothing
that a READ in flight counts with. -/
theorem agentMove_traceInv {m : Move} {s t : State} (hm : m ≠ .reset) (ht : s.traceInv)
    (h : agentMove m s = .next t) : t.traceInv := by
  cases m <;> simp only [agentMove, Host.Outcome.next.injEq] at h
  case reset => exact absurd rfl hm
  case irqHandler n => subst h; exact runHandler_traceInv ht
  case irqRequest n => subst h; unfold requestIrq; split <;> exact ht
  case foreign x =>
    unfold foreignAccess at h
    split at h <;> cases h
    rw [foreignEffect_frame]
    exact ht
  all_goals
    subst h
    exact ht

/-- Settles O50: each read of DATA is followed by its push and then by the next line, only READ has such lines, and
the counts of READ leave a byte to push at every push. -/
theorem stepKeepsTraceInv : Obligations.StepKeepsTraceInv := by
  unfold Obligations.StepKeepsTraceInv
  intro s t hinv ht hreset h
  obtain ⟨rest, hseq | ⟨m, hhead, hm⟩⟩ := step_cases h
  · exact hseq.traceInv (hinv.withPort rest s.cmd) ht
  · refine agentMove_traceInv (s := { s with agenda := rest }) ?_ ht hm
    rintro rfl
    exact hreset (by rw [hhead]; rfl)

end Sys2Proof.Machine
end

section
/-! PROOFS. What the decoder makes of the bytes the encoder writes, and that an incomplete stream is not accepted (R34,
R51, R54, R57, R58). -/

namespace Sys2Proof

/-! ### Words and their fields -/

/-- A word is what its four bytes spell (R58). -/
theorem CmdWord.ofBytes_bytes (w : CmdWord) : CmdWord.ofBytes (w.extractLsb' 0 8) (w.extractLsb' 8 8)
    (w.extractLsb' 16 8) (w.extractLsb' 24 8) = w := by
  unfold CmdWord.ofBytes
  rw [BitVec.extractLsb'_append_extractLsb'_eq_extractLsb' (by decide),
    BitVec.extractLsb'_append_extractLsb'_eq_extractLsb' (by decide),
    BitVec.extractLsb'_append_extractLsb'_eq_extractLsb' (by decide)]
  exact BitVec.extractLsb'_eq_self

section Fields

variable (op : BitVec 4) (d : BitVec 1) (a : Byte) (n : Count)

/-- The field `d` of a word made of fields (R51). -/
theorem CmdWord.d_ofFields : CmdWord.d (CmdWord.ofFields op d a n) = d := by
  simp only [CmdWord.d, CmdWord.ofFields, BitVec.extractLsb'_append_eq_of_le, Nat.reduceLeDiff, Nat.reduceSub]
  exact BitVec.extractLsb'_append_eq_right

/-- The field `a` of a word made of fields (R51). -/
theorem CmdWord.a_ofFields : CmdWord.a (CmdWord.ofFields op d a n) = a := by
  simp only [CmdWord.a, CmdWord.ofFields, BitVec.extractLsb'_append_eq_of_le, Nat.reduceLeDiff, Nat.reduceSub]
  exact BitVec.extractLsb'_append_eq_right

/-- The field `n` of a word made of fields (R51). -/
theorem CmdWord.n_ofFields : CmdWord.n (CmdWord.ofFields op d a n) = n :=
  BitVec.extractLsb'_append_eq_right

/-- A mask falls on the fields one by one. -/
theorem CmdWord.ofFields_and (mop : BitVec 4) (mz : BitVec 3) (md : BitVec 1) (ma : Byte) (mn : Count) :
    CmdWord.ofFields op d a n &&& (mop ++ mz ++ md ++ ma ++ mn)
      = (op &&& mop) ++ (0#3 &&& mz) ++ (d &&& md) ++ (a &&& ma) ++ (n &&& mn) := by
  refine BitVec.and_append.trans (congrArg (· ++ (n &&& mn)) ?_)
  refine BitVec.and_append.trans (congrArg (· ++ (a &&& ma)) ?_)
  refine BitVec.and_append.trans (congrArg (· ++ (d &&& md)) ?_)
  exact BitVec.and_append

end Fields

/-- The direction is what its bit says (R51). -/
theorem Dir.ofBit_bit (d : Dir) : Dir.ofBit d.bit = d := by
  cases d <;> rfl

/-! ### The opcode map -/

/-- A word that selects a row has the row's opcode (R54). -/
theorem op_of_selects {r : OpcodeRow} {w : CmdWord} (hr : r ∈ opcodeMap) (h : r.selects w = true) :
    CmdWord.op w = r.name.op := by
  have hrow : ∀ r ∈ opcodeMap, CmdWord.op r.mask = BitVec.allOnes 4 ∧ CmdWord.op r.pattern = r.name.op := by
    decide
  obtain ⟨hmask, hpattern⟩ := hrow r hr
  calc CmdWord.op w = CmdWord.op w &&& CmdWord.op r.mask := by rw [hmask, BitVec.and_allOnes]
    _ = CmdWord.op (w &&& r.mask) := BitVec.extractLsb'_and.symm
    _ = r.name.op := by rw [beq_iff_eq.mp h, hpattern]

/-- A word decodes to the row it selects: no other row has that opcode (R54). -/
theorem decodeWord_of_selects {r : OpcodeRow} {w : CmdWord} (hr : r ∈ opcodeMap) (h : r.selects w = true) :
    decodeWord w = .ok r.name := by
  unfold decodeWord
  cases hf : opcodeMap.find? (fun r => r.selects w) with
  | none => exact absurd h (List.find?_eq_none.mp hf r hr)
  | some r' =>
    have hsel : r'.selects w = true := by simpa using List.find?_some hf
    have hop := (op_of_selects (List.mem_of_find?_eq_some hf) hsel).symm.trans (op_of_selects hr h)
    exact congrArg Except.ok (Machine.Mnemonic.op_injective hop)

/-- The word of a command selects the command's row (R51, R54). -/
theorem decodeWord_encodeWord (i : Instr) : decodeWord (encodeWord i) = .ok i.mnemonic := by
  obtain ⟨r, hr, hname, hsel⟩ : ∃ r ∈ opcodeMap, r.name = i.mnemonic ∧ encodeWord i &&& r.mask = r.pattern := by
    cases i
    case genStart => exact ⟨⟨.genStart, 0x10000000, 0xFFFFFFFF⟩, by decide, rfl, by decide⟩
    case clrAddr => exact ⟨⟨.clrAddr, 0x30000000, 0xFFFFFFFF⟩, by decide, rfl, by decide⟩
    case genStop => exact ⟨⟨.genStop, 0x50000000, 0xFFFFFFFF⟩, by decide, rfl, by decide⟩
    case sendAddr a d =>
      refine ⟨⟨.sendAddr, 0x20000000, 0xFE00FFFF⟩, by decide, rfl, ?_⟩
      exact (CmdWord.ofFields_and _ _ _ _ 0xF#4 0x7#3 0#1 0#8 0xFFFF#16).trans (by simp only [BitVec.and_zero]; rfl)
    case writeByte v =>
      refine ⟨⟨.writeByte, 0x40000000, 0xFF00FFFF⟩, by decide, rfl, ?_⟩
      exact (CmdWord.ofFields_and _ _ _ _ 0xF#4 0x7#3 1#1 0#8 0xFFFF#16).trans (by simp only [BitVec.and_zero]; rfl)
    case read a n =>
      refine ⟨⟨.read, 0x80000000, 0xFF000000⟩, by decide, rfl, ?_⟩
      exact (CmdWord.ofFields_and _ _ _ _ 0xF#4 0x7#3 1#1 0#8 0#16).trans (by simp only [BitVec.and_zero]; rfl)
    case write a n p =>
      refine ⟨⟨.write, 0x90000000, 0xFF000000⟩, by decide, rfl, ?_⟩
      exact (CmdWord.ofFields_and _ _ _ _ 0xF#4 0x7#3 1#1 0#8 0#16).trans (by simp only [BitVec.and_zero]; rfl)
  rw [decodeWord_of_selects hr (beq_iff_eq.mpr hsel), hname]

/-! ### Streams -/

/-- The decoder reads a word from its four bytes, and goes on with the payload (R57, R58). -/
theorem decode_bytes_append {w : CmdWord} {m : Mnemonic} (hw : decodeWord w = .ok m) (rest : List Byte) :
    decode (CmdWord.bytes w ++ rest) = takePayload (m.command w) rest := by
  simp only [CmdWord.bytes, List.cons_append, List.nil_append, decode, CmdWord.ofBytes_bytes, hw]

/-- A payload of the length the count says is taken from the stream as a whole (R57). -/
theorem takePayload_append {a : Byte} {n : Count} {p : List Byte} (hlen : p.length = n.toNat) (rest : List Byte) :
    takePayload (.write a n []) (p ++ rest) = .command (.write a n p) rest := by
  have hle : n.toNat ≤ (p ++ rest).length := by simp [hlen]
  simp only [takePayload, if_pos hle, List.take_left' hlen, List.drop_left' hlen]

/-- The decoder gives back the command that was encoded, whatever follows it (R51, R54, R57, R58). -/
theorem decode_encode_append {i : Instr} (hwf : i.wf = true) (rest : List Byte) :
    decode (encode i ++ rest) = .command i rest := by
  rw [encode, List.append_assoc, decode_bytes_append (decodeWord_encodeWord i)]
  cases i
  case sendAddr a d =>
    simp only [Instr.mnemonic, Mnemonic.command, encodeWord, CmdWord.a_ofFields, CmdWord.d_ofFields, Dir.ofBit_bit]
    rfl
  case writeByte v => simp only [Instr.mnemonic, Mnemonic.command, encodeWord, CmdWord.a_ofFields]; rfl
  case read a n =>
    simp only [Instr.mnemonic, Mnemonic.command, encodeWord, CmdWord.a_ofFields, CmdWord.n_ofFields]
    rfl
  case write a n p =>
    have hlen : p.length = n.toNat := beq_iff_eq.mp hwf
    simp only [Instr.mnemonic, Mnemonic.command, encodeWord, CmdWord.a_ofFields, CmdWord.n_ofFields]
    exact takePayload_append hlen rest
  all_goals rfl

/-- A stream of fewer than four bytes ends inside the command word (R34). -/
theorem decode_of_short {bs : List Byte} (h : bs.length < 4) : decode bs = .incomplete .word := by
  match bs, h with
  | [], _ | [_], _ | [_, _], _ | [_, _, _], _ => rfl

/-- The word of a WRITE with fewer bytes behind it than its count says is incomplete (R57). -/
theorem decode_of_missing_payload {a : Byte} {n : Count} {bs : List Byte} (h : bs.length < n.toNat) :
    decode (CmdWord.bytes (CmdWord.ofFields 0x9 0 a n) ++ bs) = .incomplete .payload := by
  refine (decode_bytes_append (decodeWord_encodeWord (.write a n [])) bs).trans ?_
  simp only [Instr.mnemonic, Mnemonic.command, encodeWord, CmdWord.n_ofFields, takePayload]
  exact if_neg (Nat.not_le.mpr h)

namespace Machine

/-- `cmd_valid` is 0 exactly when the stream is incomplete (R53, R57). -/
theorem cmdValid_eq_false {s : State} : s.cmdValid = false ↔ ∃ why, decode s.cmd = .incomplete why := by
  unfold State.cmdValid
  cases decode s.cmd <;> simp

/-- With an empty agenda the sequencer moves (log 2). -/
theorem step_of_no_agenda {s : State} (h : s.agenda = []) : step s = sequencerStep s := by
  simp [step, turn, h]

/-- An idle sequencer waits while the stream is incomplete (R57). -/
theorem step_of_incomplete {s : State} (ha : s.agenda = []) (hidle : s.fsm = .idle) (h : s.cmdValid = false) :
    step s = .next s := by
  obtain ⟨why, hd⟩ := cmdValid_eq_false.mp h
  rw [step_of_no_agenda ha, sequencerStep_of_idle hidle, fetch, hd]

/-- Settles O9: both streams are incomplete, and with an incomplete stream the sequencer waits. -/
theorem incompleteCommandIsNotAccepted : Obligations.IncompleteCommandIsNotAccepted := by
  unfold Obligations.IncompleteCommandIsNotAccepted
  intro s ha hidle
  refine ⟨step_of_incomplete ha hidle, fun hshort => ?_, fun a n bs hcmd hlen => ?_⟩
  · have hvalid : s.cmdValid = false := cmdValid_eq_false.mpr ⟨_, decode_of_short hshort⟩
    exact ⟨hvalid, step_of_incomplete ha hidle hvalid⟩
  · have hvalid : s.cmdValid = false := cmdValid_eq_false.mpr ⟨_, hcmd ▸ decode_of_missing_payload hlen⟩
    exact ⟨hvalid, step_of_incomplete ha hidle hvalid⟩

end Machine

end Sys2Proof
end

section
/-! PROOFS. The data-phase actions are the ones that stop while ADDR is 1, and ADDR is cleared by the pair of reads
alone (R40, R42, R44, R130). -/

namespace Sys2Proof.Machine

/-! ### Data-phase actions -/

/-- The data-phase lines, whatever start is due (R130). -/
def dataPhaseLabels : List Label :=
  [.r70_1, .r70_2, .r71_1, .r84_5, .r84_7, .r84_8, .r85_7, .r85_9, .r85_10, .r85_13, .r86_4, .r86_5, .r86_7, .r86_10,
    .r86_12, .r86_13, .r86_16, .r86_17, .r95_4, .r95_5, .r95_7]

/-- A data-phase action stands at one of these labels, or is the byte of an address phase with no start due. -/
theorem lineOf_dataPhase_label {m : Mnemonic} {u : Label} {ln : Line} {due : Bool} (h : lineOf m u = some ln)
    (hd : ln.dataPhaseWhen due = true) : (u = .r68_2 ∧ due = false) ∨ u ∈ dataPhaseLabels := by
  revert due
  cases m <;> cases u <;> cases h <;> decide

/-- At these labels stand the data-phase actions of the commands, whatever start is due (R130, C4). -/
theorem dataPhaseLines (due : Bool) : ∀ p ∈ [(Mnemonic.writeByte, Label.r70_1), (.writeByte, .r70_2),
    (.genStop, .r71_1), (.read, .r84_5), (.read, .r84_7), (.read, .r84_8), (.read, .r85_7), (.read, .r85_9),
    (.read, .r85_10), (.read, .r85_13), (.read, .r86_4), (.read, .r86_5), (.read, .r86_7), (.read, .r86_10),
    (.read, .r86_12), (.read, .r86_13), (.read, .r86_16), (.read, .r86_17), (.write, .r95_4),
    (.write, .r95_5), (.write, .r95_7)], (lineOf p.1 p.2).any (Line.dataPhaseWhen due) = true := by
  revert due
  decide

/-- Performing a line is no fault for the reason of ADDR: that stop comes before it (R130). -/
theorem perform_ne_addrNotCleared (ln : Line) (s : State) : perform ln s ≠ .fault .addrNotCleared := by
  cases ln
  case push l => simp only [perform, pushByte]; split <;> nofun
  case sendPayload l => simp only [perform, sendPayloadByte]; split <;> nofun
  case endTimeout => simp only [perform, endTimeout]; split <;> nofun
  all_goals nofun

/-- A data-phase action with ADDR held stops (R130). -/
theorem runLine_of_addr_held {ln : Line} {s : State} (hd : ln.dataPhase s = true) (h : addrHeld s = true) :
    runLine ln s = .fault .addrNotCleared := by
  simp [runLine, hd, h]

/-- Nothing else stops for that reason. -/
theorem runLine_eq_addrNotCleared {ln : Line} {s : State} :
    runLine ln s = .fault .addrNotCleared ↔ ln.dataPhase s = true ∧ addrHeld s = true := by
  refine ⟨fun h => ?_, fun ⟨hd, hh⟩ => runLine_of_addr_held hd hh⟩
  by_contra hc
  have hok : ln.dataPhase s = false ∨ addrHeld s = false := by
    rwa [not_and_or, Bool.not_eq_true, Bool.not_eq_true] at hc
  rcases hok with hok | hok
  · rw [runLine_of_not_dataPhase hok] at h; exact perform_ne_addrNotCleared ln s h
  · rw [runLine_of_addr_cleared hok] at h; exact perform_ne_addrNotCleared ln s h

/-- What a command that stops for that reason was at. -/
theorem exec_eq_addrNotCleared {i : Instr} {s : State} (h : exec i s = .fault .addrNotCleared) :
    s.fsm = .run ∧ ∃ ln, lineOf i.mnemonic s.upc = some ln ∧ ln.dataPhase s = true ∧ addrHeld s = true := by
  rw [exec_eq_command] at h
  cases hf : s.fsm with
  | idle => rw [command_idle hf] at h; cases h
  | run =>
    by_cases ho : s.op = i.mnemonic.op
    · rw [command_run hf ho] at h
      cases hl : lineOf i.mnemonic s.upc with
      | none => rw [hl] at h; cases h
      | some ln =>
        rw [hl] at h
        exact ⟨rfl, ln, rfl, runLine_eq_addrNotCleared.mp h⟩
    · simp [command, hf, ho] at h

/-- Settles O26: a line stops for that reason exactly when it is a data-phase action and ADDR is held; the tables say
which lines are. -/
theorem dataPhaseNeedsAddrCleared : Obligations.DataPhaseNeedsAddrCleared := by
  unfold Obligations.DataPhaseNeedsAddrCleared
  refine ⟨?_, ?_, ?_, ?_, ?_, ?_⟩
  · rintro i s ln ⟨hrun, hop, _⟩ hln hd hh
    rw [exec_at hrun hop hln]
    exact runLine_of_addr_held hd hh
  · intro s m l hmem
    obtain ⟨ln, hln, hd⟩ := (Option.any_eq_true _ _).mp (dataPhaseLines s.startDue (m, l) hmem)
    exact ⟨ln, hln, by rw [dataPhase_eq_when]; exact hd⟩
  · intro s m hmem
    simp only [List.mem_cons, List.not_mem_nil, or_false] at hmem
    rcases hmem with rfl | rfl | rfl
    all_goals exact ⟨_, rfl, by simp [Line.dataPhase]⟩
  · rintro v s ⟨hrun, hop, hu⟩ hh
    rw [exec_at (i := .writeByte v) hrun hop (by rw [hu]; rfl)]
    exact runLine_of_addr_held rfl hh
  · rintro s ⟨hrun, hop, hu⟩ hh
    rw [exec_at (i := .genStop) hrun hop (by rw [hu]; rfl)]
    exact runLine_of_addr_held rfl hh
  · intro i s h
    obtain ⟨hrun, ln, hln, hd, hh⟩ := exec_eq_addrNotCleared h
    rw [dataPhase_eq_when] at hd
    exact ⟨hrun, hh, lineOf_dataPhase_label hln hd⟩

/-! ### What clears ADDR, and what raises it -/

/-- From `s` to `t` the pair of reads was completed and cleared ADDR (R42). -/
def pairCompleted (s t : State) : Prop := s.s1Latch = true ∧ t.s1Latch = false ∧ t.stat1 = s.stat1Cleared

/-- ADDR is the bit of STAT1: while STAT1 and the parameters are kept, so is ADDR. -/
theorem addrHeld_congr {s t : State} (hc : t.cfg = s.cfg) (h : t.stat1 = s.stat1) : addrHeld t = addrHeld s := by
  rw [addrHeld, hc, h]
  rfl

/-- A read of STAT2 completes the pair, or keeps STAT1 (R42). -/
theorem stat2Effect_pair_or_kept (s : State) :
    pairCompleted s (stat2Effect s) ∨ (stat2Effect s).stat1 = s.stat1 := by
  cases hl : s.s1Latch with
  | false => rw [stat2Effect_of_no_pair (.inl hl)]; exact .inr rfl
  | true =>
    cases hh : addrHeld s with
    | false => rw [stat2Effect_of_no_pair (.inr hh)]; exact .inr rfl
    | true => rw [stat2Effect_of_pair hl hh]; exact .inl ⟨hl, rfl, rfl⟩

/-- A poll is a read of STAT2 that completes the pair, or keeps STAT1. -/
theorem pollOnce_pair_or_kept (w : Site) (s : State) :
    (pairCompleted s (pollOnce w s) ∧ w.pollEvent s = .s2 s.stat2) ∨ (pollOnce w s).stat1 = s.stat1 := by
  unfold pollOnce Site.pollEvent
  cases w.poll
  · exact .inr rfl
  · exact (stat2Effect_pair_or_kept s).imp_left fun h => ⟨h, rfl⟩
  · exact .inr rfl

/-- After its poll a wait leaves the latch as it is. -/
theorem waitUntil_s1Latch (w : Site) (l : Label) (s : State) :
    (waitUntil w l s).s1Latch = (pollOnce w s).s1Latch := by
  rcases waitUntil_cases w l s with ⟨_, h⟩ | ⟨_, _, h⟩ | ⟨_, _, h⟩ | ⟨_, _, h⟩ <;> rw [h] <;> rfl

/-- A line is a read of STAT2 that completes the pair, or keeps STAT1 (R42). -/
theorem perform_pair_or_kept {ln : Line} {s t : State} (h : perform ln s = .next t) :
    (pairCompleted s t ∧ t.trace = s.trace ++ [.s2 s.stat2]) ∨ t.stat1 = s.stat1 := by
  have ha := perform_addr h
  cases ln
  case stat2 l => cases h; exact (stat2Effect_pair_or_kept s).imp_left fun h => ⟨h, perform_trace (ln := .stat2 l) rfl⟩
  case wait w l =>
    cases h
    rw [pairCompleted, waitUntil_stat1, waitUntil_s1Latch, waitUntil_trace]
    exact (pollOnce_pair_or_kept w s).imp_left fun ⟨h, he⟩ => ⟨h, by rw [he]⟩
  all_goals exact .inr ha.1

/-- The sequencer's step is a read of STAT2 that completes the pair, or keeps STAT1. -/
theorem SequencerCase.pair_or_kept {s t : State} (h : SequencerCase s t) :
    (pairCompleted s t ∧ t.trace = s.trace ++ [.s2 s.stat2]) ∨ t.stat1 = s.stat1 := by
  cases h with
  | accepts _ _ _ _ h | rejects _ _ _ h | waits _ h => subst h; exact .inr rfl
  | performs m ln _ _ _ _ hp => exact perform_pair_or_kept hp

/-- A move of another agent is a change of STAT1 by the controller, another master's read of STAT2 that completes the
pair, or keeps STAT1. -/
theorem agentMove_stat1 {m : Move} {s t : State} (h : agentMove m s = .next t) :
    (∃ w, m = .stat1 w ∧ t = setStat1 w s) ∨ (m = .foreign .stat2 ∧ pairCompleted s t) ∨ t.stat1 = s.stat1 := by
  cases m <;> simp only [agentMove, Host.Outcome.next.injEq] at h
  case stat1 w => exact .inl ⟨w, rfl, h.symm⟩
  case irqRequest => subst h; unfold requestIrq; split <;> exact .inr (.inr rfl)
  case irqHandler => subst h; unfold runHandler; split <;> exact .inr (.inr rfl)
  case foreign x =>
    right
    unfold foreignAccess at h
    split at h <;> cases h
    cases x
    case stat2 => exact (stat2Effect_pair_or_kept s).imp_left fun h => ⟨rfl, h⟩
    case dataRead => rw [foreignEffect, dataReadEffect_frame]; exact .inr rfl
    case ctlWrite f b => cases f <;> exact .inr rfl
    all_goals exact .inr rfl
  all_goals
    subst h
    exact .inr (.inr rfl)

/-- With ADDR 0 and STAT1 changed by the controller, ADDR rises only in an outstanding address phase, and STAT1 takes
the value the controller gives it (R42). -/
theorem setStat1_raises {w : Word} {s : State} (h : addrHeld s = false) (hr : addrHeld (setStat1 w s) = true) :
    s.addrSent = true ∧ (setStat1 w s).stat1 = w := by
  cases ha : s.addrSent with
  | false => rw [(setStat1_keeps_cleared h ha).1] at hr; cases hr
  | true => exact ⟨rfl, by rw [setStat1_outstanding h ha]⟩

/-- A step completes the pair, with its event or by another master's read; changes STAT1 by the controller; or keeps
STAT1. -/
theorem step_stat1 {s t : State} (h : step s = .next t) :
    (pairCompleted s t ∧ (t.trace = s.trace ++ [.s2 s.stat2] ∨ s.agenda.head? = some (.foreign .stat2)))
      ∨ (∃ w rest, s.agenda = .stat1 w :: rest ∧ t = setStat1 w { s with agenda := rest })
      ∨ (t.stat1 = s.stat1) := by
  obtain ⟨rest, hseq | ⟨m, hhead, hm⟩⟩ := step_cases h
  · rcases hseq.pair_or_kept with ⟨hpair, htrace⟩ | hkept
    · exact .inl ⟨hpair, .inl htrace⟩
    · exact .inr (.inr hkept)
  · rcases agentMove_stat1 hm with ⟨w, rfl, ht⟩ | ⟨rfl, hpair⟩ | hkept
    · exact .inr (.inl ⟨w, rest, hhead, ht⟩)
    · exact .inl ⟨hpair, .inr (by rw [hhead]; rfl)⟩
    · exact .inr (.inr hkept)

/-- The parameters stand through every step (R6). -/
theorem step_cfg {s t : State} (h : step s = .next t) : t.cfg = s.cfg := (oneEventPerStep s t h).1

/-- ADDR is 0 after the pair of reads, whether it was held or not (R42, R69 c). -/
theorem addrOf_after_pair (s : State) : addrOf s.cfg.layout (readStat2 (readStat1 s)).stat1 = false := by
  rw [stat1_after_pair]
  cases h : addrHeld s
  · exact h
  · exact addrOf_withoutAddr _ _

/-- Settles O27: the only operations that write STAT1 are the read of STAT2, which clears ADDR alone and only after a
read of STAT1, and the controller's change, which keeps an ADDR that is held and raises it only in an address phase. -/
theorem addrClearedByThePairOnly : Obligations.AddrClearedByThePairOnly := by
  unfold Obligations.AddrClearedByThePairOnly
  refine ⟨fun s => ⟨addrOf_after_pair s, fun j _ hne => ?_, ?_, rfl, rfl, fun hl => ?_, fun w => addrHeld_setStat1,
    fun w h ha => (setStat1_keeps_cleared h ha).1, fun w h ha => by rw [setStat1_outstanding h ha]⟩, ?_, ?_⟩
  · rw [stat1_after_pair]
    split
    · exact getLsbD_withoutAddr hne _
    · rfl
  · have hcfg : (readStat2 (readStat1 s)).cfg = s.cfg := by
      simp only [readStat2]; rw [stat2Effect_frame]; rfl
    rw [addrHeld, hcfg]
    exact addrOf_after_pair s
  · rw [readStat2, stat2Effect_of_no_pair (.inl hl)]
    exact ⟨rfl, rfl⟩
  · intro s t h hh hh'
    rcases step_stat1 h with ⟨⟨hl, hl', h1⟩, hevent⟩ | ⟨w, rest, _, ht⟩ | hkept
    · exact ⟨hl, hl', h1, hevent⟩
    · rw [ht, addrHeld_setStat1 (s := { s with agenda := rest }) hh] at hh'
      cases hh'
    · rw [addrHeld_congr (step_cfg h) hkept, hh] at hh'
      cases hh'
  · intro s t h hh hh'
    rcases step_stat1 h with ⟨⟨_, _, h1⟩, _⟩ | ⟨w, rest, hhead, ht⟩ | hkept
    · rw [addrHeld, step_cfg h, h1, State.stat1Cleared, addrOf_withoutAddr] at hh'
      cases hh'
    · subst ht
      obtain ⟨ha, h1⟩ := setStat1_raises (s := { s with agenda := rest }) hh hh'
      exact ⟨ha, w, by rw [hhead]; rfl, h1⟩
    · rw [addrHeld_congr (step_cfg h) hkept, hh] at hh'
      cases hh'

end Sys2Proof.Machine
end

section
/-! PROOFS. The lines of the five primitives and of WRITE that are neither waits nor returns, with the state each leaves
(R40, R67 to R71, R95, R96). -/

namespace Sys2Proof.Machine

/-- A command in flight performs its line when that is no data-phase action, or ADDR is cleared (R13, R130). -/
theorem exec_performs {i : Instr} {s : State} {l : Label} {ln : Line} (hat : s.standsAt i.mnemonic l)
    (hln : lineOf i.mnemonic l = some ln) (hok : ln.dataPhase s = false ∨ addrHeld s = false) :
    exec i s = perform ln s := by
  obtain ⟨hrun, hop, rfl⟩ := hat
  rw [exec_at hrun hop hln]
  rcases hok with h | h
  · exact runLine_of_not_dataPhase h
  · exact runLine_of_addr_cleared h

/-- A command in flight stops at a data-phase action while ADDR is held (R130). -/
theorem exec_stops {i : Instr} {s : State} {l : Label} {ln : Line} (hat : s.standsAt i.mnemonic l)
    (hln : lineOf i.mnemonic l = some ln) (hd : ln.dataPhase s = true) (hh : addrHeld s = true) :
    exec i s = .fault .addrNotCleared := by
  obtain ⟨hrun, hop, rfl⟩ := hat
  rw [exec_at hrun hop hln]
  exact runLine_of_addr_held hd hh

/-! ### What the accesses leave, field by field -/

/-- A request for a start condition (R40, R67). -/
theorem ctlWrite_start (s : State) : ctlWrite .start true s = { s with
    start := true, startDue := true, s1Latch := false, trace := s.trace ++ [.cw .start true] } := by
  rw [ctlWrite, ctlWriteEffect_start]
  rfl

/-- A request for a stop condition (R41, R71). -/
theorem ctlWrite_stop (s : State) : ctlWrite .stop true s = { s with
    stop := true, s1Latch := false, trace := s.trace ++ [.cw .stop true] } := by
  rw [ctlWrite, ctlWriteEffect_of_no_start rfl]
  rfl

/-- A read of STAT2: it clears ADDR when it completes the pair and finds ADDR held, and drops the latch (R42, R69). -/
theorem readStat2_eq (s : State) : readStat2 s = { s with
    stat1 := if s.s1Latch && addrOf s.cfg.layout s.stat1 then s.stat1Cleared else s.stat1,
    addrSent := if s.s1Latch && addrOf s.cfg.layout s.stat1 then false else s.addrSent,
    s1Latch := false, trace := s.trace ++ [.s2 s.stat2] } := by
  cases h : s.s1Latch && addrOf s.cfg.layout s.stat1 <;> simp only [readStat2, stat2Effect, addrHeld, h] <;> rfl

/-- The write of the address byte after a start, or with ADDR cleared. -/
theorem sendAddrByte_ok {s : State} (h : addrHeld s = false ∨ s.startDue = true) (l : Label) :
    (Line.sendAddrByte l).dataPhase s = false ∨ addrHeld s = false :=
  h.elim .inr fun hdue => .inl (by rw [Line.dataPhase, hdue]; rfl)

/-! ### The statements -/

/-- Settles O18: each clause is the line at its label, performed. -/
theorem primitiveLines : Obligations.PrimitiveLines := by
  unfold Obligations.PrimitiveLines
  refine fun s => ⟨fun hat => ?_, fun a d hat hok => ?_, fun hat => ?_, fun hat => ?_, fun v hat hh => ?_,
    fun hat hh => ?_⟩
  · rw [exec_performs (i := .genStart) hat rfl (.inl rfl), perform, ctlWrite_start]
    rfl
  · rw [exec_performs (i := .sendAddr a d) hat rfl (sendAddrByte_ok hok _)]
    rfl
  · rw [exec_performs (i := .clrAddr) hat rfl (.inl rfl)]
    rfl
  · rw [exec_performs (i := .clrAddr) hat rfl (.inl rfl), perform, readStat2_eq]
    rfl
  · rw [exec_performs (i := .writeByte v) hat rfl (.inr hh)]
    rfl
  · rw [exec_performs (i := .genStop) hat rfl (.inr hh), perform, ctlWrite_stop]
    rfl

/-- Settles O38: each clause is the line at its label, performed, or stopped as a data-phase action with ADDR held. -/
theorem writeLines : Obligations.WriteLines := by
  unfold Obligations.WriteLines
  intro a n p s
  refine ⟨fun hat hn => ?_, fun hat hn => ?_, fun hat => ?_, fun hat => ?_, fun hat hok => ?_, fun hat => ?_,
    fun hat => ?_, fun hat hlt => ?_, fun hat hle => ?_, fun v hat hv hh => ?_, fun hat hh => ?_, fun hat => ?_,
    fun hat hh => ?_, fun hat hh => ?_⟩
  · rw [exec_performs (i := .write a n p) hat rfl (.inl rfl), perform, if_pos hn]
    rfl
  · rw [exec_performs (i := .write a n p) hat rfl (.inl rfl), perform, if_neg hn]
    rfl
  · rw [exec_performs (i := .write a n p) hat rfl (.inl rfl)]
    rfl
  · rw [exec_performs (i := .write a n p) hat rfl (.inl rfl), perform, ctlWrite_start]
    rfl
  · rw [exec_performs (i := .write a n p) hat rfl (sendAddrByte_ok hok _)]
    rfl
  · rw [exec_performs (i := .write a n p) hat rfl (.inl rfl)]
    rfl
  · rw [exec_performs (i := .write a n p) hat rfl (.inl rfl), perform, readStat2_eq]
    rfl
  · rw [exec_performs (i := .write a n p) hat rfl (.inl rfl), perform, if_pos hlt]
    rfl
  · rw [exec_performs (i := .write a n p) hat rfl (.inl rfl), perform, if_neg (Nat.not_lt.mpr hle)]
    rfl
  · rw [exec_performs (i := .write a n p) hat rfl (.inr hh), perform, sendPayloadByte_eq_next.mpr ⟨v, hv, rfl⟩]
    rfl
  · exact exec_stops (i := .write a n p) hat rfl rfl hh
  · rw [exec_performs (i := .write a n p) hat rfl (.inl rfl)]
    rfl
  · rw [exec_performs (i := .write a n p) hat rfl (.inr hh), perform, ctlWrite_stop]
    rfl
  · exact exec_stops (i := .write a n p) hat rfl rfl hh

end Sys2Proof.Machine
end

section
/-! PROOFS. Runs of the sequencer: it reads no agenda, so a run of its own turns is a run of the machine for every agenda
that gives it these turns; and the runs of the primitives that complete (R13, R42, R65, R68, R69, R71). -/

namespace Sys2Proof.Machine

/-! ### The sequencer reads no agenda -/

/-- The state with other moves on its agenda. -/
def State.withAgenda (moves : List Move) (s : State) : State := { s with agenda := moves }

/-- A state with the agenda it has. -/
theorem State.withAgenda_self {s : State} {g : List Move} (h : s.agenda = g) : s.withAgenda g = s := by
  subst h
  rfl

section Agenda

variable (g : List Move) {s t : State}

/-- A read of STAT2 reads no agenda. -/
theorem stat2Effect_withAgenda (s : State) : stat2Effect (s.withAgenda g) = (stat2Effect s).withAgenda g := by
  unfold stat2Effect
  change (if s.s1Latch && addrHeld s then _ else _) = _
  split <;> rfl

/-- A read of DATA reads no agenda. -/
theorem dataRead_withAgenda (s : State) : dataRead (s.withAgenda g) = (dataRead s).withAgenda g := by
  cases h : s.rx with
  | nil => rw [dataRead_of_empty h, dataRead_of_empty (s := s.withAgenda g) h]; rfl
  | cons v rest => rw [dataRead_of_received h, dataRead_of_received (s := s.withAgenda g) h]; rfl

/-- A poll reads no agenda. -/
theorem pollOnce_withAgenda (w : Site) (s : State) : pollOnce w (s.withAgenda g) = (pollOnce w s).withAgenda g := by
  unfold pollOnce
  cases w.poll with
  | stat1 => cases w <;> rfl
  | stat2 => simp only [readStat2, stat2Effect_withAgenda]; rfl
  | stopField => rfl

/-- A failed poll counts without it. -/
theorem pollFailed_withAgenda (w : Site) (s : State) :
    pollFailed w (s.withAgenda g) = (pollFailed w s).withAgenda g := by
  unfold pollFailed
  change (match s.cfg.pollBound with | none => _ | some b => if b ≤ s.k + 1 then _ else _) = _
  cases s.cfg.pollBound with
  | none => rfl
  | some b => dsimp only; split <;> rfl

/-- A wait reads no agenda. -/
theorem waitUntil_withAgenda (w : Site) (l : Label) (s : State) :
    waitUntil w l (s.withAgenda g) = (waitUntil w l s).withAgenda g := by
  have hw : w.awaited (s.withAgenda g) = w.awaited s := by cases w <;> rfl
  unfold waitUntil
  rw [hw, pollOnce_withAgenda, pollFailed_withAgenda]
  split <;> rfl

/-- A line does the same whatever stands on the agenda. -/
theorem perform_withAgenda {ln : Line} (hp : perform ln s = .next t) :
    perform ln (s.withAgenda g) = .next (t.withAgenda g) := by
  cases ln <;> simp only [perform, Host.Outcome.next.injEq, returnOk, pushByte_eq_next,
    sendPayloadByte_eq_next, endTimeout_eq_next] at hp ⊢
  case push => obtain ⟨hroom, rfl⟩ := hp; exact ⟨hroom, rfl⟩
  case sendPayload => obtain ⟨v, hv, rfl⟩ := hp; exact ⟨v, hv, rfl⟩
  case endTimeout => obtain ⟨w, hw, rfl⟩ := hp; exact ⟨w, hw, rfl⟩
  case wait w l => subst hp; exact waitUntil_withAgenda g w l s
  case stat2 => subst hp; simp only [readStat2, stat2Effect_withAgenda]; rfl
  case recv => subst hp; rw [dataRead_withAgenda]; rfl
  case requireCount => subst hp; change (if s.n = 0 then _ else _) = _; split <;> rfl
  case requireCapacity => subst hp; change (if s.cfg.sinkCap < s.n.toNat then _ else _) = _; split <;> rfl
  case ctlSet f l => subst hp; cases f <;> rfl
  case ctlClr f l => subst hp; cases f <;> rfl
  all_goals (subst hp; rfl)

/-- Whether a line is a data-phase action does not depend on it. -/
theorem dataPhase_withAgenda (ln : Line) (s : State) : ln.dataPhase (s.withAgenda g) = ln.dataPhase s := by
  cases ln <;> rfl

/-- The sequencer does the same whatever stands on the agenda. -/
theorem sequencerStep_withAgenda (h : sequencerStep s = .next t) :
    sequencerStep (s.withAgenda g) = .next (t.withAgenda g) := by
  rcases hf : s.fsm with _ | _
  · rw [sequencerStep_of_idle (s := s.withAgenda g) hf, fetch]
    rcases sequencerStep_idle hf h with ⟨i, rest, hd, he⟩ | ⟨w, _, rest, hd, ht⟩ | ⟨_, hd, ht⟩ <;>
      rw [show decode (s.withAgenda g).cmd = _ from hd]
    · rw [exec_eq_command, command_idle (s := { s with cmd := rest }) hf] at he
      cases he
      exact (exec_eq_command i _).trans (command_idle hf)
    · rw [ht]
      rfl
    · rw [ht]
  · cases sequencerStep_cases h with
    | accepts _ _ hidle | rejects _ _ hidle | waits hidle => cases hf.symm.trans hidle
    | performs m ln _ hop hln hok hp =>
      rw [sequencerStep_run (s := s.withAgenda g) hf hop, show lineOf m (s.withAgenda g).upc = _ from hln]
      exact runLine_eq_next.mpr ⟨by rw [dataPhase_withAgenda]; exact hok, perform_withAgenda g hp⟩

/-- The sequencer changes no agenda. -/
theorem sequencerStep_agenda (h : sequencerStep s = .next t) : t.agenda = s.agenda := by
  have h' : Host.Outcome.next (φ := Fault) (ρ := Refusal) t = .next (t.withAgenda s.agenda) :=
    h.symm.trans (sequencerStep_withAgenda s.agenda h)
  rw [Host.Outcome.next.inj h']
  rfl

end Agenda

/-! ### Runs -/

/-- A run goes on with the state of its first step. -/
theorem run_of_step {n : Nat} {s t : State} (h : step s = .next t) :
    Sys2Proof.core.run (n + 1) s = Sys2Proof.core.run n t := by
  simp only [Host.Core.run, show Sys2Proof.core.step s = _ from h]

/-- A run is cut into two. -/
theorem run_add {a b : Nat} {s t : State} (h : Sys2Proof.core.run a s = .next t) :
    Sys2Proof.core.run (a + b) s = Sys2Proof.core.run b t := by
  induction a generalizing s with
  | zero =>
    have hst : s = t := Host.Outcome.next.inj h
    rw [Nat.zero_add, hst]
  | succ a ih =>
    rw [Nat.succ_add]
    cases hs : step s with
    | next s' => rw [run_of_step hs] at h ⊢; exact ih h
    | fault r => simp [Host.Core.run, show Sys2Proof.core.step s = _ from hs] at h
    | refused r => simp [Host.Core.run, show Sys2Proof.core.step s = _ from hs] at h

/-- `n` turns of the sequencer lead from `s` to `t`. -/
inductive Turns : Nat → State → State → Prop
  | nil (s : State) : Turns 0 s s
  | cons {n : Nat} {s t u : State} (h : sequencerStep s = .next t) (hr : Turns n t u) : Turns (n + 1) s u

/-- Turns follow turns. -/
theorem Turns.trans {a b : Nat} {s t u : State} (h : Turns a s t) (h' : Turns b t u) : Turns (a + b) s u := by
  induction h with
  | nil s => rwa [Nat.zero_add]
  | cons hs _ ih => rw [Nat.succ_add]; exact .cons hs (ih h')

/-- With the sequencer's turns at the head of the agenda the machine takes them, and the moves behind them stay. -/
theorem Turns.run {n : Nat} {s t : State} {g : List Move} (h : Turns n s t)
    (ha : s.agenda = List.replicate n .sequencer ++ g) : Sys2Proof.core.run n s = .next (t.withAgenda g) := by
  rw [← State.withAgenda_self ha]
  clear ha
  induction h with
  | nil s => rfl
  | @cons n s t u hs _ ih =>
    have hstep : step (s.withAgenda (List.replicate (n + 1) .sequencer ++ g))
        = sequencerStep (s.withAgenda (List.replicate n .sequencer ++ g)) := rfl
    rw [run_of_step (hstep.trans (sequencerStep_withAgenda _ hs)), ih]

/-- With an empty agenda the machine takes the sequencer's turns. -/
theorem Turns.run_no_agenda {n : Nat} {s t : State} (h : Turns n s t) (ha : s.agenda = []) :
    Sys2Proof.core.run n s = .next t := by
  induction h with
  | nil s => rfl
  | cons hs _ ih => rw [run_of_step ((step_of_no_agenda ha).trans hs), ih ((sequencerStep_agenda hs).trans ha)]

/-- Turns of the sequencer, the controller's clearing of STOP, and more turns (R41). -/
theorem Turns.run_clearStop {a b : Nat} {s t u : State} (h : Turns a s t)
    (h' : Turns b { t with stop := false, agenda := [] } u)
    (ha : s.agenda = List.replicate a .sequencer ++ [.clearStop]) :
    Sys2Proof.core.run (a + (b + 1)) s = .next u := by
  have hstep : step (t.withAgenda [.clearStop]) = .next { t with stop := false, agenda := [] } := rfl
  rw [run_add (h.run ha), run_of_step hstep]
  exact h'.run_no_agenda rfl

/-- The controller shows ADDR in an outstanding address phase, which ends it (R42). -/
theorem step_stat1_shows_addr {s : State} {w : Word} {g : List Move} (hg : s.agenda = .stat1 w :: g)
    (hwin : windowClosed s = false) (hh : addrHeld s = false) (ha : s.addrSent = true)
    (hw : addrOf s.cfg.layout w = true) :
    step s = .next { s with stat1 := w, addrSent := false, agenda := g } := by
  have hturn : turn s = .agent (.stat1 w) { s with agenda := g } := by
    simp [turn, hg, heldOff, hwin]
  rw [step, hturn]
  exact congrArg Host.Outcome.next ((setStat1_outstanding (s := { s with agenda := g }) hh ha).trans (by simp [hw]))

/-! ### Turns -/

/-- An idle sequencer accepts the encoded command at its port (R52). -/
theorem Turns.accept {i : Instr} {n : Nat} {rest : List Byte} {s u : State} (hidle : s.fsm = .idle)
    (hwf : i.wf = true) (hcmd : s.cmd = encode i ++ rest) (hr : Turns n (accepted i { s with cmd := rest }) u) :
    Turns (n + 1) s u := by
  refine .cons ?_ hr
  rw [sequencerStep_of_idle hidle, fetch, hcmd, decode_encode_append hwf]
  exact (exec_eq_command i _).trans (command_idle hidle)

/-- A running sequencer performs its line. -/
theorem Turns.line (m : Mnemonic) {l : Label} {ln : Line} {n : Nat} {s t u : State} (hrun : s.fsm = .run)
    (hop : s.op = m.op) (hu : s.upc = l) (hln : lineOf m l = some ln) (hok : ln.dataPhase s = false ∨ addrHeld s = false)
    (hp : perform ln s = .next t) (hr : Turns n t u) : Turns (n + 1) s u := by
  refine .cons ?_ hr
  rw [sequencerStep_run hrun hop, hu, hln]
  exact runLine_eq_next.mpr ⟨hok, hp⟩

/-- Turns to a state that is written in another way. -/
theorem Turns.congr {n : Nat} {s t u : State} (h : Turns n s t) (htu : t = u) : Turns n s u := htu ▸ h

/-- The state reached, written in another way. -/
theorem Turns.nil_of_eq {s u : State} (h : s = u) : Turns 0 s u := h ▸ .nil s

section Performed

variable {s : State} {l : Label} {w : Site}

/-- A wait whose condition holds is left (R65). -/
theorem perform_wait (h : w.awaited s = true) :
    perform (.wait w l) s = .next (((pollOnce w s).setK 0).goto l) := by
  simp only [perform, waitUntil, h, if_true]

/-- The wait for ADDR is left without arming the clearing (R68 d). -/
theorem perform_wait_addr (h : addrHeld s = true) :
    perform (.wait .w3 l) s = .next (((readStat1 s).dropLatch.setK 0).goto l) := by
  have hw : Site.w3.awaited s = true := h
  rw [perform_wait hw, pollOnce_ends_phase hw]

/-- A write of CTRL that requests no start (R32). -/
theorem perform_ctlSet {f : CtlField} (h : (f == .start) = false) :
    perform (.ctlSet f l) s = .next (((s.setCtl f true).dropLatch.log (.cw f true)).goto l) := by
  rw [perform, ctlWrite, ctlWriteEffect_of_no_start (by rw [h]; rfl)]

/-- A clearing of a field of CTRL (R32). -/
theorem perform_ctlClr {f : CtlField} :
    perform (.ctlClr f l) s = .next (((s.setCtl f false).dropLatch.log (.cw f false)).goto l) := by
  rw [perform, ctlWrite, ctlWriteEffect_of_no_start (Bool.and_false _)]

/-- A read of STAT2, whatever it clears (R42, R69). -/
theorem perform_stat2 : perform (.stat2 l) s = .next (State.goto l { s with
    stat1 := if s.s1Latch && addrOf s.cfg.layout s.stat1 then s.stat1Cleared else s.stat1,
    addrSent := if s.s1Latch && addrOf s.cfg.layout s.stat1 then false else s.addrSent,
    s1Latch := false, trace := s.trace ++ [.s2 s.stat2] }) := by
  rw [perform, readStat2_eq]

/-- The second read of the pair, with ADDR held (R42). -/
theorem perform_stat2_of_pair (hl : s.s1Latch = true) (h : addrHeld s = true) :
    perform (.stat2 l) s = .next ((State.log (.s2 s.stat2)
      { s with stat1 := s.stat1Cleared, addrSent := false, s1Latch := false }).goto l) := by
  rw [perform, readStat2, stat2Effect_of_pair hl h]

/-- A read of DATA with a byte received (R40). -/
theorem perform_recv {v : Byte} {rest : List Byte} (h : s.rx = v :: rest) : perform (.recv l) s = .next (State.goto l
    { s with rx := rest, rxb := v, s1Latch := false, trace := s.trace ++ [.dr v] }) := by
  rw [perform, dataRead_of_received h]

/-- A push onto a sink with room (R82). -/
theorem perform_push (h : s.sink.length < s.cfg.sinkCap) : perform (.push l) s = .next ((sinkPush s).goto l) :=
  pushByte_eq_next.mpr ⟨h, rfl⟩

end Performed

/-- A request for a start (R67). -/
theorem perform_ctlSet_start : perform (.ctlSet .start l) s = .next (State.goto l { s with
    start := true, startDue := true, s1Latch := false, trace := s.trace ++ [.cw .start true] }) := by
  rw [perform, ctlWrite_start]

/-- The write of the address byte after a start begins the address phase (R40). -/
theorem perform_sendAddrByte_of_start (h : s.startDue = true) :
    perform (.sendAddrByte l) s = .next (State.goto l { s with
      tx := s.tx ++ [addrByte s.cfg.addrForm s.a s.d], addrSent := true, startDue := false, s1Latch := false,
      trace := s.trace ++ [.dw (addrByte s.cfg.addrForm s.a s.d)] }) := by
  rw [perform, dataWrite, dataWriteEffect, h, Bool.or_true]
  rfl

/-- A list with two elements more, the first of them put to the list it follows. -/
theorem append_cons_cons {α : Type} (xs ys : List α) (x y : α) : xs ++ x :: y :: ys = xs ++ [x] ++ y :: ys := by
  simp

/-! ### The primitives -/

/-- Settles O22: the two reads are the pair, and clear ADDR if it is held. -/
theorem clrAddrCompletes : Obligations.ClrAddrCompletes := by
  unfold Obligations.ClrAddrCompletes
  intro s rest ha hidle hu hcmd
  refine ⟨?_, addrOf_withoutAddr _ _⟩
  refine Turns.run_no_agenda ?_ ha
  refine .accept (i := .clrAddr) hidle rfl hcmd ?_
  refine .line .clrAddr rfl rfl rfl rfl (.inl rfl) rfl ?_
  refine .line .clrAddr rfl rfl rfl rfl (.inl rfl) perform_stat2 ?_
  refine .line .clrAddr rfl rfl rfl rfl (.inl rfl) rfl ?_
  refine .nil_of_eq ?_
  simp only [append_cons_cons, hidle, hu]
  rfl

/-- Settles O24: the request is no fault with ADDR cleared, and the poll comes after the controller's move. -/
theorem genStopCompletes : Obligations.GenStopCompletes := by
  unfold Obligations.GenStopCompletes
  intro s rest ha hidle hu hcmd hh
  refine Turns.run_clearStop (a := 2) (b := 2) (t := { s with
    cmd := rest, op := 0x5, a := 0, d := .write, n := 0, pl := [], k := 0, fsm := .run, upc := .r71_2,
    stop := true, s1Latch := false, trace := s.trace ++ [.cw .stop true] }) ?_ ?_ ha
  · refine .accept (i := .genStop) hidle rfl hcmd ?_
    refine .line .genStop rfl rfl rfl rfl (.inr hh) (perform_ctlSet rfl) ?_
    exact .nil _
  · refine .line .genStop rfl rfl rfl rfl (.inl rfl) (perform_wait rfl) ?_
    refine .line .genStop rfl rfl rfl rfl (.inl rfl) rfl ?_
    refine .nil_of_eq ?_
    simp only [append_cons_cons, hidle, hu]
    rfl

section SendAddr

variable {s : State} {a : Byte} {d : Dir} {rest : List Byte}

/-- The state of a SEND_ADDR that was launched in `s` and has written its byte (R68). -/
def addrByteSent (a : Byte) (d : Dir) (rest : List Byte) (s : State) : State := { s with
  cmd := rest, op := 0x2, a := a, d := d, n := 0, pl := [], k := 0, fsm := .run, upc := .r68_3,
  tx := s.tx ++ [addrByte s.cfg.addrForm a d], addrSent := true, startDue := false, s1Latch := false,
  trace := s.trace ++ [.s1 s.stat1] ++ [.dw (addrByte s.cfg.addrForm a d)] }

/-- SEND_ADDR after a start, up to its byte. -/
theorem sendAddr_turns (hidle : s.fsm = .idle) (hcmd : s.cmd = encode (.sendAddr a d) ++ rest)
    (hdue : s.startDue = true) (hsb : sbOf s.cfg.layout s.stat1 = true) :
    Turns 3 s (addrByteSent a d rest s) := by
  refine .accept (i := .sendAddr a d) hidle rfl hcmd ?_
  refine .line .sendAddr rfl rfl rfl rfl (.inl rfl) (perform_wait hsb) ?_
  refine .line .sendAddr rfl rfl rfl rfl (sendAddrByte_ok (.inr hdue) .r68_3) (perform_sendAddrByte_of_start hdue) ?_
  exact .nil _

/-- The end of SEND_ADDR, once STAT1 shows ADDR. -/
theorem sendAddr_turns_end {s : State} (hrun : s.fsm = .run) (hop : s.op = Mnemonic.sendAddr.op) (hu : s.upc = .r68_3)
    (hh : addrHeld s = true) : Turns 2 s { s with
      k := 0, s1Latch := false, status := 0, site := 0, fsm := .idle, upc := .idle,
      trace := s.trace ++ [.s1 s.stat1] ++ [.done 0 0] } := by
  cases s
  refine .line .sendAddr hrun hop hu rfl (.inl rfl) (perform_wait_addr hh) ?_
  refine .line .sendAddr hrun hop rfl rfl (.inl rfl) rfl ?_
  exact .nil _

/-- Settles O21: after the address byte ADDR is shown, all along or by the controller's move, and the poll that ends the
address phase leaves no half of the pair. -/
theorem sendAddrCompletes : Obligations.SendAddrCompletes := by
  unfold Obligations.SendAddrCompletes
  constructor
  · intro s a d rest ha hidle hu hcmd hdue hsb haddr
    have hend := sendAddr_turns_end (s := addrByteSent a d rest s) rfl rfl rfl haddr
    refine Turns.run_no_agenda (((sendAddr_turns hidle hcmd hdue hsb).trans hend).congr ?_) ha
    simp only [addrByteSent, append_cons_cons, hidle, hu]
  · intro s a d rest w ha hidle hu hcmd hdue hsb haddr hw
    have hbyte := (sendAddr_turns hidle hcmd hdue hsb).run (g := [.stat1 w]) ha
    have hshown := step_stat1_shows_addr (s := (addrByteSent a d rest s).withAgenda [.stat1 w]) rfl
      (Bool.and_false _) haddr rfl hw
    have hend := sendAddr_turns_end (s := { addrByteSent a d rest s with stat1 := w, addrSent := false, agenda := [] })
      rfl rfl rfl hw
    rw [run_add (b := 3) hbyte, run_of_step hshown]
    refine Turns.run_no_agenda (hend.congr ?_) rfl
    simp only [addrByteSent, append_cons_cons, hidle, hu]

end SendAddr

end Sys2Proof.Machine
end

section
/-! PROOFS. The runs of READ and WRITE that complete: the launch and the address phase they share, then the lines of each
variant up to the poll of STOP, the controller's move, and the end (R42, R83 to R90, R95, R98, R128). -/

namespace Sys2Proof.Machine

/-! ### The launch -/

section Lines

variable {s : State} {l : Label}

/-- The zero test passes (R81, R95). -/
theorem perform_requireCount (h : s.n ≠ 0) : perform (.requireCount l) s = .next (s.goto l) := by
  rw [perform, if_neg h]

/-- The capacity test passes (R81). -/
theorem perform_requireCapacity (h : s.n.toNat ≤ s.cfg.sinkCap) :
    perform (.requireCapacity l) s = .next (s.goto l) := by
  rw [perform, if_neg (Nat.not_lt.mpr h)]

/-- The variant selected (R83). -/
theorem perform_selectVariant {v : ReadVariant} (h : readVariant s.n = v) :
    perform .selectVariant s = .next (s.goto (variantEntry v)) := by
  rw [perform, h]

/-- The loop test of READ, more than three bytes to come (R86.3). -/
theorem perform_testRem_more {l' : Label} (h : 3 < s.rem.toNat) : perform (.testRem l l') s = .next (s.goto l) := by
  rw [perform, if_pos h]

/-- The loop test of READ, no more than three bytes to come (R86.3). -/
theorem perform_testRem_done {l' : Label} (h : s.rem.toNat ≤ 3) : perform (.testRem l l') s = .next (s.goto l') := by
  rw [perform, if_neg (Nat.not_lt.mpr h)]

end Lines

/-- The state of READ or WRITE at the wait for ADDR, its address byte sent, from the state at the start request
(R67, R68). -/
def addressPhase (s : State) : State := { s with
  start := true, startDue := false, addrSent := true, s1Latch := false, k := 0, upc := .r68_3,
  tx := s.tx ++ [addrByte s.cfg.addrForm s.a s.d],
  trace := s.trace ++ [.cw .start true, .s2 s.stat2, .s1 s.stat1, .dw (addrByte s.cfg.addrForm s.a s.d)] }

/-- The start and the address byte, with both status registers answering. -/
theorem addressPhase_turns {m : Mnemonic} {s : State} (hm : isTransaction m = true) (hrun : s.fsm = .run)
    (hop : s.op = m.op) (hu : s.upc = .r67_1) (hentered : masterEntered s.cfg s.stat2 = true)
    (hsb : sbOf s.cfg.layout s.stat1 = true) : Turns 4 s (addressPhase s) := by
  cases s
  cases m <;> cases hm
  all_goals
    refine .line _ hrun hop hu rfl (.inl rfl) perform_ctlSet_start ?_
    refine .line _ hrun hop rfl rfl (.inl rfl) (perform_wait hentered) ?_
    refine .line _ hrun hop rfl rfl (.inl rfl) (perform_wait hsb) ?_
    refine .line _ hrun hop rfl rfl (.inl rfl) (perform_sendAddrByte_of_start rfl) ?_
    refine .nil_of_eq ?_
    simp only [addressPhase, append_cons_cons]
    rfl

/-- A READ up to its start request (R52, R81, R83). -/
def readBegun (a : Byte) (n : Count) (rest : List Byte) (s : State) : State := { s with
  cmd := rest, op := 0x8, a := a, d := .read, n := n, pl := [], k := 0, rem := n, fsm := .run, upc := .r67_1 }

/-- A READ in its domain is accepted and goes to the start request. -/
theorem readBegun_turns {a : Byte} {n : Count} {rest : List Byte} {s : State} (hidle : s.fsm = .idle)
    (hcmd : s.cmd = encode (.read a n) ++ rest) (hn : n ≠ 0) (hcap : n.toNat ≤ s.cfg.sinkCap) :
    Turns 4 s (readBegun a n rest s) := by
  cases s
  refine .accept (i := .read a n) hidle rfl hcmd ?_
  refine .line .read rfl rfl rfl rfl (.inl rfl) (perform_requireCount hn) ?_
  refine .line .read rfl rfl rfl rfl (.inl rfl) (perform_requireCapacity hcap) ?_
  refine .line .read rfl rfl rfl rfl (.inl rfl) rfl ?_
  exact .nil _

/-- A WRITE up to its start request (R52, R95). -/
def writeBegun (a : Byte) (n : Count) (p rest : List Byte) (s : State) : State := { s with
  cmd := rest, op := 0x9, a := a, d := .write, n := n, pl := p, k := 0, idx := 0, fsm := .run, upc := .r67_1 }

/-- A WRITE in its domain is accepted and goes to the start request. -/
theorem writeBegun_turns {a : Byte} {n : Count} {p rest : List Byte} {s : State} (hidle : s.fsm = .idle)
    (hcmd : s.cmd = encode (.write a n p) ++ rest) (hlen : p.length = n.toNat) (hn : n ≠ 0) :
    Turns 3 s (writeBegun a n p rest s) := by
  cases s
  refine .accept (i := .write a n p) hidle (beq_iff_eq.mpr hlen) hcmd ?_
  refine .line .write rfl rfl rfl rfl (.inl rfl) (perform_requireCount hn) ?_
  refine .line .write rfl rfl rfl rfl (.inl rfl) rfl ?_
  exact .nil _

section Launch

variable {k j : Nat} {s u v : State} {g : List Move} {w : Word}

/-- A run whose first turns are the sequencer's goes on with the moves behind them. -/
theorem run_after_turns (h : Turns k s u) (ha : s.agenda = List.replicate k .sequencer ++ g)
    (htail : Sys2Proof.core.run j (u.withAgenda g) = .next v) : Sys2Proof.core.run (k + j) s = .next v := by
  rw [run_add (h.run ha), htail]

/-- A run in which the controller shows ADDR after the address byte goes on with STAT1 as the controller left it. -/
theorem run_after_launch (h : Turns k s u) (ha : s.agenda = List.replicate k .sequencer ++ .stat1 w :: g)
    (hu : u.upc = .r68_3) (hh : addrHeld u = false) (hsent : u.addrSent = true) (hw : addrOf u.cfg.layout w = true)
    (htail : Sys2Proof.core.run j { u with stat1 := w, addrSent := false, agenda := g } = .next v) :
    Sys2Proof.core.run (k + (j + 1)) s = .next v := by
  have hwin : windowClosed (u.withAgenda (.stat1 w :: g)) = false := by
    change (u.cfg.windowTimely && u.upc.insideWindow) = false
    rw [hu]
    exact Bool.and_false _
  have hstep := step_stat1_shows_addr (s := u.withAgenda (.stat1 w :: g)) rfl hwin hh hsent hw
  rw [run_add (h.run ha), run_of_step hstep]
  exact htail

end Launch

/-- What `answersAtOnce` says. -/
theorem answersAtOnce_iff {s : State} : s.answersAtOnce = true ↔ sbOf s.cfg.layout s.stat1 = true
    ∧ addrHeld s = true ∧ btfOf s.cfg.layout s.stat1 = true ∧ rxneOf s.cfg.layout s.stat1 = true
    ∧ masterEntered s.cfg s.stat2 = true := by
  simp [State.answersAtOnce, addrHeld, and_assoc]

/-- What `answersFromLaunch` says of the flags. -/
theorem answersFromLaunch_flags {s : State} {w : Word} (h : s.answersFromLaunch w = true) : addrHeld s = false
    ∧ sbOf s.cfg.layout s.stat1 = true ∧ masterEntered s.cfg s.stat2 = true ∧ addrOf s.cfg.layout w = true
    ∧ btfOf s.cfg.layout w = true ∧ rxneOf s.cfg.layout w = true := by
  simp only [State.answersFromLaunch, State.launchOk, Bool.and_eq_true, Bool.not_eq_true'] at h
  obtain ⟨⟨⟨⟨⟨⟨⟨_, haddr⟩, _⟩, hsb⟩, hentered⟩, hw⟩, hbtf⟩, hrxne⟩ := h
  exact ⟨haddr, hsb, hentered, hw, hbtf, hrxne⟩

/-- Clearing ADDR leaves BTF and RXNE as they were. -/
theorem byteFlags_withoutAddr {c : Config} (h : c.wf = true) (w : Word) :
    btfOf c.layout (withoutAddr c.layout w) = btfOf c.layout w
      ∧ rxneOf c.layout (withoutAddr c.layout w) = rxneOf c.layout w :=
  sameByteFlags_withoutAddr (Bool.and_eq_true_iff.mp h).1 w

/-- The state after the wait for ADDR and the clearing pair behind it, at the line `l` (R42, R69). -/
def addrClearedAt (l : Label) (s : State) : State := { s with
  k := 0, stat1 := s.stat1Cleared, addrSent := false, s1Latch := false, upc := l,
  trace := s.trace ++ [.s1 s.stat1, .s1 s.stat1, .s2 s.stat2] }

/-- A READ of `n` bytes at the wait for ADDR, with ADDR and the flags awaited after it shown, `rx` received, room in
the sink, and `g` on the agenda. -/
structure State.ReadReady (n : Count) (rx : List Byte) (g : List Move) (s : State) : Prop where
  run : s.fsm = .run
  op : s.op = Mnemonic.read.op
  upc : s.upc = .r68_3
  count : s.n = n
  rem : s.rem = n
  held : addrHeld s = true
  btf : btfOf s.cfg.layout (withoutAddr s.cfg.layout s.stat1) = true
  rxne : rxneOf s.cfg.layout (withoutAddr s.cfg.layout s.stat1) = true
  received : s.rx = rx
  room : s.sink.length + n.toNat ≤ s.cfg.sinkCap
  agenda : s.agenda = g

section Launched

variable {s : State} {a : Byte} {n : Count} {rest : List Byte} {g : List Move} {j : Nat} {f : State → State}

/-- A READ launched in `s`, at the wait for ADDR. -/
theorem readLaunched_turns (hidle : s.fsm = .idle) (hcmd : s.cmd = encode (.read a n) ++ rest) (hn : n ≠ 0)
    (hroom : s.sinkRoom n.toNat = true) (hentered : masterEntered s.cfg s.stat2 = true)
    (hsb : sbOf s.cfg.layout s.stat1 = true) : Turns 8 s (addressPhase (readBegun a n rest s)) := by
  have hcap : n.toNat ≤ s.cfg.sinkCap := Nat.le_of_add_left_le (of_decide_eq_true hroom)
  exact (readBegun_turns hidle hcmd hn hcap).trans (addressPhase_turns (m := .read) rfl rfl rfl rfl hentered hsb)

/-- READ under a controller that shows every flag all along: the launch, then what the READ does from the wait for
ADDR on. -/
theorem read_run_answering (htail : ∀ u : State, u.ReadReady n s.rx g → Sys2Proof.core.run j u = .next (f u))
    (ha : s.agenda = List.replicate 8 .sequencer ++ g) (hidle : s.fsm = .idle)
    (hcmd : s.cmd = encode (.read a n) ++ rest) (hn : n ≠ 0) (hcfg : s.cfg.wf = true)
    (hanswers : s.answersAtOnce = true) (hroom : s.sinkRoom n.toNat = true) :
    Sys2Proof.core.run (8 + j) s = .next (f { addressPhase (readBegun a n rest s) with agenda := g }) := by
  obtain ⟨hsb, hh, hbtf, hrxne, hentered⟩ := answersAtOnce_iff.mp hanswers
  obtain ⟨hbtf', hrxne'⟩ := byteFlags_withoutAddr hcfg s.stat1
  exact run_after_turns (readLaunched_turns hidle hcmd hn hroom hentered hsb) ha
    (htail _ ⟨rfl, rfl, rfl, rfl, rfl, hh, hbtf'.trans hbtf, hrxne'.trans hrxne, rfl, of_decide_eq_true hroom, rfl⟩)

/-- READ from a legal launch, the controller showing ADDR after the address byte: the launch, that move, then what the
READ does from the wait for ADDR on. -/
theorem read_run_launched {w : Word}
    (htail : ∀ u : State, u.ReadReady n s.rx g → Sys2Proof.core.run j u = .next (f u))
    (ha : s.agenda = List.replicate 8 .sequencer ++ .stat1 w :: g) (hidle : s.fsm = .idle)
    (hcmd : s.cmd = encode (.read a n) ++ rest) (hn : n ≠ 0) (hcfg : s.cfg.wf = true)
    (hanswers : s.answersFromLaunch w = true) (hroom : s.sinkRoom n.toNat = true) :
    Sys2Proof.core.run (8 + (j + 1)) s
      = .next (f { addressPhase (readBegun a n rest s) with stat1 := w, addrSent := false, agenda := g }) := by
  obtain ⟨hh, hsb, hentered, hw, hbtf, hrxne⟩ := answersFromLaunch_flags hanswers
  obtain ⟨hbtf', hrxne'⟩ := byteFlags_withoutAddr hcfg w
  exact run_after_launch (readLaunched_turns hidle hcmd hn hroom hentered hsb) ha rfl hh rfl hw
    (htail _ ⟨rfl, rfl, rfl, rfl, rfl, hw, hbtf'.trans hbtf, hrxne'.trans hrxne, rfl, of_decide_eq_true hroom, rfl⟩)

end Launched

/-! ### READ of one byte -/

section Single

variable {s : State} {b : Byte} {more : List Byte}

/-- From the address phase to the clearing of ADDR (R84.1 to R84.4). -/
theorem readSingle_clearing (hrun : s.fsm = .run) (hop : s.op = Mnemonic.read.op) (hu : s.upc = .r68_3)
    (hv : readVariant s.n = .singleByte) (hh : addrHeld s = true) : Turns 6 s { s with
      k := 0, ack := false, im := true, stat1 := s.stat1Cleared, addrSent := false, s1Latch := false, upc := .r84_5,
      trace := s.trace ++ [.s1 s.stat1, .cw .ack false, .im true, .s1 s.stat1, .s2 s.stat2] } := by
  cases s
  refine .line .read hrun hop hu rfl (.inl rfl) (perform_wait_addr hh) ?_
  refine .line .read hrun hop rfl rfl (.inl rfl) (perform_selectVariant hv) ?_
  refine .line .read hrun hop rfl rfl (.inl rfl) perform_ctlClr ?_
  refine .line .read hrun hop rfl rfl (.inl rfl) rfl ?_
  refine .line .read hrun hop rfl rfl (.inl rfl) rfl ?_
  refine .line .read hrun hop rfl rfl (.inl rfl) (perform_stat2_of_pair rfl hh) ?_
  refine .nil_of_eq ?_
  simp only [append_cons_cons]
  rfl

/-- The stop request, the byte and its push (R84.5 to R84.9). -/
theorem readSingle_byte (hrun : s.fsm = .run) (hop : s.op = Mnemonic.read.op) (hu : s.upc = .r84_5)
    (hh : addrHeld s = false) (hrxne : rxneOf s.cfg.layout s.stat1 = true) (hrx : s.rx = b :: more)
    (hroom : s.sink.length < s.cfg.sinkCap) : Turns 5 s { s with
      stop := true, im := false, k := 0, rx := more, rxb := b, sink := s.sink ++ [b], rem := s.rem - 1,
      s1Latch := false, upc := .r84_10,
      trace := s.trace ++ [.cw .stop true, .im false, .s1 s.stat1, .dr b, .push b] } := by
  cases s
  refine .line .read hrun hop hu rfl (.inr hh) (perform_ctlSet rfl) ?_
  refine .line .read hrun hop rfl rfl (.inl rfl) rfl ?_
  refine .line .read hrun hop rfl rfl (.inr hh) (perform_wait hrxne) ?_
  refine .line .read hrun hop rfl rfl (.inr hh) (perform_recv hrx) ?_
  refine .line .read hrun hop rfl rfl (.inl rfl) (perform_push hroom) ?_
  refine .nil_of_eq ?_
  simp only [append_cons_cons]
  rfl

/-- The end, STOP read as 0 (R84.10 to R84.12). -/
theorem readSingle_end (hrun : s.fsm = .run) (hop : s.op = Mnemonic.read.op) (hu : s.upc = .r84_10)
    (hstop : s.stop = false) : Turns 3 s { s with
      k := 0, ack := true, s1Latch := false, status := 0, site := 0, fsm := .idle, upc := .idle,
      trace := s.trace ++ [.cr .stop false, .cw .ack true, .done 0 0] } := by
  cases s
  cases hstop
  refine .line .read hrun hop hu rfl (.inl rfl) (perform_wait rfl) ?_
  refine .line .read hrun hop rfl rfl (.inl rfl) (perform_ctlSet rfl) ?_
  refine .line .read hrun hop rfl rfl (.inl rfl) rfl ?_
  refine .nil_of_eq ?_
  simp only [append_cons_cons]
  rfl

/-- The state that a READ of one byte leaves, ADDR being held in STAT1 when the byte is awaited (R90). -/
def readSingleDone (b : Byte) (more : List Byte) (s : State) : State := { s with
  agenda := [], k := 0, rem := s.rem - 1, rxb := b, im := false, stop := false, ack := true, stat1 := s.stat1Cleared,
  addrSent := false, s1Latch := false, rx := more, sink := s.sink ++ [b], status := 0, site := 0,
  fsm := .idle, upc := .idle,
  trace := s.trace ++ [.s1 s.stat1, .cw .ack false, .im true, .s1 s.stat1, .s2 s.stat2, .cw .stop true, .im false,
    .s1 s.stat1Cleared, .dr b, .push b, .cr .stop false, .cw .ack true, .done 0 0] }

/-- A READ of one byte from the wait for ADDR on, the controller clearing STOP before it is polled. -/
theorem readSingle_run (h : s.ReadReady 1 (b :: more) (List.replicate 11 .sequencer ++ [.clearStop])) :
    Sys2Proof.core.run 15 s = .next (readSingleDone b more s) := by
  have hv : readVariant s.n = .singleByte := by rw [h.count]; rfl
  refine Turns.run_clearStop (a := 11) (b := 3) ((readSingle_clearing h.run h.op h.upc hv h.held).trans
    (readSingle_byte h.run h.op rfl (addrOf_withoutAddr _ _) h.rxne h.received h.room)) ?_ h.agenda
  refine Turns.congr (readSingle_end h.run h.op rfl rfl) ?_
  simp only [readSingleDone, List.append_assoc, List.cons_append, List.nil_append]

end Single

/-- Settles O33: the launch, the run of one byte from the wait for ADDR on, in the same way for both controllers. -/
theorem readSingleCompletes : Obligations.ReadSingleCompletes := by
  unfold Obligations.ReadSingleCompletes
  constructor
  · intro s a b rest more ha hidle hu hcmd hcfg hanswers hroom hrx
    rw [read_run_answering (j := 15) (f := readSingleDone b more) (fun u h => readSingle_run (hrx ▸ h)) ha hidle hcmd
      (by decide) hcfg hanswers hroom]
    simp only [readSingleDone, addressPhase, readBegun, hidle, hu, List.append_assoc, List.cons_append, List.nil_append]
    rfl
  · intro s a b rest more w ha hidle hu hcmd hcfg hanswers hroom hrx
    rw [read_run_launched (j := 15) (f := readSingleDone b more) (fun u h => readSingle_run (hrx ▸ h)) ha hidle hcmd
      (by decide) hcfg hanswers hroom]
    simp only [readSingleDone, addressPhase, readBegun, hidle, hu, List.append_assoc, List.cons_append, List.nil_append]
    rfl

/-! ### READ of two bytes -/

section Double

variable {s : State} {b c : Byte} {more : List Byte}

/-- From the wait for ADDR to its clearing (R85.1 to R85.4). -/
theorem readDouble_clearing (hrun : s.fsm = .run) (hop : s.op = Mnemonic.read.op) (hu : s.upc = .r68_3)
    (hv : readVariant s.n = .doubleByte) (hh : addrHeld s = true) : Turns 6 s { s with
      k := 0, pos := true, im := true, stat1 := s.stat1Cleared, addrSent := false, s1Latch := false, upc := .r85_5,
      trace := s.trace ++ [.s1 s.stat1, .cw .pos true, .im true, .s1 s.stat1, .s2 s.stat2] } := by
  cases s
  refine .line .read hrun hop hu rfl (.inl rfl) (perform_wait_addr hh) ?_
  refine .line .read hrun hop rfl rfl (.inl rfl) (perform_selectVariant hv) ?_
  refine .line .read hrun hop rfl rfl (.inl rfl) (perform_ctlSet rfl) ?_
  refine .line .read hrun hop rfl rfl (.inl rfl) rfl ?_
  refine .line .read hrun hop rfl rfl (.inl rfl) rfl ?_
  refine .line .read hrun hop rfl rfl (.inl rfl) (perform_stat2_of_pair rfl hh) ?_
  refine .nil_of_eq ?_
  simp only [append_cons_cons]
  rfl

/-- The wait for both bytes, the stop request, and the two bytes with their pushes (R85.5 to R85.14). -/
theorem readDouble_bytes (hrun : s.fsm = .run) (hop : s.op = Mnemonic.read.op) (hu : s.upc = .r85_5)
    (hh : addrHeld s = false) (hbtf : btfOf s.cfg.layout s.stat1 = true) (hrx : s.rx = b :: c :: more)
    (hroom : s.sink.length + 2 ≤ s.cfg.sinkCap) : Turns 10 s { s with
      ack := false, im := false, stop := true, k := 0, rx := more, rxb := c, sink := s.sink ++ [b, c],
      rem := s.rem - 1 - 1, s1Latch := false, upc := .r85_15,
      trace := s.trace ++ [.cw .ack false, .im false, .s1 s.stat1, .im true, .cw .stop true, .dr b, .push b, .im false,
        .dr c, .push c] } := by
  have hfirst : s.sink.length < s.cfg.sinkCap := by omega
  have hsecond : (s.sink ++ [b]).length < s.cfg.sinkCap := by simp; omega
  cases s
  refine .line .read hrun hop hu rfl (.inl rfl) perform_ctlClr ?_
  refine .line .read hrun hop rfl rfl (.inl rfl) rfl ?_
  refine .line .read hrun hop rfl rfl (.inr hh) (perform_wait hbtf) ?_
  refine .line .read hrun hop rfl rfl (.inl rfl) rfl ?_
  refine .line .read hrun hop rfl rfl (.inr hh) (perform_ctlSet rfl) ?_
  refine .line .read hrun hop rfl rfl (.inr hh) (perform_recv hrx) ?_
  refine .line .read hrun hop rfl rfl (.inl rfl) (perform_push hfirst) ?_
  refine .line .read hrun hop rfl rfl (.inl rfl) rfl ?_
  refine .line .read hrun hop rfl rfl (.inr hh) (perform_recv rfl) ?_
  refine .line .read hrun hop rfl rfl (.inl rfl) (perform_push hsecond) ?_
  refine .nil_of_eq ?_
  simp only [append_cons_cons]
  rfl

/-- The end, STOP read as 0 (R85.15 to R85.18). -/
theorem readDouble_end (hrun : s.fsm = .run) (hop : s.op = Mnemonic.read.op) (hu : s.upc = .r85_15)
    (hstop : s.stop = false) : Turns 4 s { s with
      k := 0, pos := false, ack := true, s1Latch := false, status := 0, site := 0, fsm := .idle, upc := .idle,
      trace := s.trace ++ [.cr .stop false, .cw .pos false, .cw .ack true, .done 0 0] } := by
  cases s
  cases hstop
  refine .line .read hrun hop hu rfl (.inl rfl) (perform_wait rfl) ?_
  refine .line .read hrun hop rfl rfl (.inl rfl) perform_ctlClr ?_
  refine .line .read hrun hop rfl rfl (.inl rfl) (perform_ctlSet rfl) ?_
  refine .line .read hrun hop rfl rfl (.inl rfl) rfl ?_
  refine .nil_of_eq ?_
  simp only [append_cons_cons]
  rfl

/-- The state that a READ of two bytes leaves, from the state at the wait for ADDR (R90). -/
def readDoubleDone (b c : Byte) (more : List Byte) (s : State) : State := { s with
  agenda := [], k := 0, rem := s.rem - 1 - 1, rxb := c, im := false, stop := false, ack := true, pos := false,
  stat1 := s.stat1Cleared, addrSent := false, s1Latch := false, rx := more, sink := s.sink ++ [b, c],
  status := 0, site := 0, fsm := .idle, upc := .idle,
  trace := s.trace ++ [.s1 s.stat1, .cw .pos true, .im true, .s1 s.stat1, .s2 s.stat2, .cw .ack false, .im false,
    .s1 s.stat1Cleared, .im true, .cw .stop true, .dr b, .push b, .im false, .dr c, .push c, .cr .stop false,
    .cw .pos false, .cw .ack true, .done 0 0] }

/-- A READ of two bytes from the wait for ADDR on, the controller clearing STOP before it is polled. -/
theorem readDouble_run (h : s.ReadReady 2 (b :: c :: more) (List.replicate 16 .sequencer ++ [.clearStop])) :
    Sys2Proof.core.run 21 s = .next (readDoubleDone b c more s) := by
  have hv : readVariant s.n = .doubleByte := by rw [h.count]; rfl
  refine Turns.run_clearStop (a := 16) (b := 4) ((readDouble_clearing h.run h.op h.upc hv h.held).trans
    (readDouble_bytes h.run h.op rfl (addrOf_withoutAddr _ _) h.btf h.received h.room)) ?_ h.agenda
  refine Turns.congr (readDouble_end h.run h.op rfl rfl) ?_
  simp only [readDoubleDone, List.append_assoc, List.cons_append, List.nil_append]

end Double

/-- Settles O34: the launch, then the run of two bytes from the wait for ADDR on, in the same way for both
controllers. -/
theorem readDoubleCompletes : Obligations.ReadDoubleCompletes := by
  unfold Obligations.ReadDoubleCompletes
  constructor
  · intro s a b c rest more ha hidle hu hcmd hcfg hanswers hroom hrx
    rw [read_run_answering (j := 21) (f := readDoubleDone b c more) (fun u h => readDouble_run (hrx ▸ h)) ha hidle hcmd
      (by decide) hcfg hanswers hroom]
    simp only [readDoubleDone, addressPhase, readBegun, hidle, hu, List.append_assoc, List.cons_append, List.nil_append]
    rfl
  · intro s a b c rest more w ha hidle hu hcmd hcfg hanswers hroom hrx
    rw [read_run_launched (j := 21) (f := readDoubleDone b c more) (fun u h => readDouble_run (hrx ▸ h)) ha hidle hcmd
      (by decide) hcfg hanswers hroom]
    simp only [readDoubleDone, addressPhase, readBegun, hidle, hu, List.append_assoc, List.cons_append, List.nil_append]
    rfl

/-! ### READ of three bytes or more -/

/-- Any other count than 1 and 2 selects the third variant (R83). -/
theorem readVariant_bulk {n : Count} (h : 3 ≤ n.toNat) : readVariant n = .bulkRead := by
  have h1 : n ≠ 1 := by rintro rfl; exact absurd h (by decide)
  have h2 : n ≠ 2 := by rintro rfl; exact absurd h (by decide)
  rw [readVariant, if_neg h1, if_neg h2]

section Bulk

variable {s : State} {b x y z : Byte} {front more : List Byte}

/-- From the wait for ADDR to its clearing (R86.1, R86.2). -/
theorem readBulk_clearing (hrun : s.fsm = .run) (hop : s.op = Mnemonic.read.op) (hu : s.upc = .r68_3)
    (hv : readVariant s.n = .bulkRead) (hh : addrHeld s = true) : Turns 4 s (addrClearedAt .r86_3 s) := by
  cases s
  refine .line .read hrun hop hu rfl (.inl rfl) (perform_wait_addr hh) ?_
  refine .line .read hrun hop rfl rfl (.inl rfl) (perform_selectVariant hv) ?_
  refine .line .read hrun hop rfl rfl (.inl rfl) rfl ?_
  refine .line .read hrun hop rfl rfl (.inl rfl) (perform_stat2_of_pair rfl hh) ?_
  refine .nil_of_eq ?_
  simp only [addrClearedAt, append_cons_cons]
  rfl

/-- The state after a round of the loop that reads `b` (R86, R87). -/
def readBulkRound (b : Byte) (more : List Byte) (s : State) : State := { s with
  k := 0, rx := more, rxb := b, sink := s.sink ++ [b], rem := s.rem - 1, s1Latch := false, upc := .r86_3,
  trace := s.trace ++ [.s1 s.stat1, .dr b, .push b] }

/-- One round of the loop: a byte is awaited, read and pushed (R86.3 to R86.6). -/
theorem readBulk_round (hrun : s.fsm = .run) (hop : s.op = Mnemonic.read.op) (hu : s.upc = .r86_3)
    (hrem : 3 < s.rem.toNat) (hh : addrHeld s = false) (hbtf : btfOf s.cfg.layout s.stat1 = true)
    (hrx : s.rx = b :: more) (hroom : s.sink.length < s.cfg.sinkCap) : Turns 4 s (readBulkRound b more s) := by
  cases s
  refine .line .read hrun hop hu rfl (.inl rfl) (perform_testRem_more hrem) ?_
  refine .line .read hrun hop rfl rfl (.inr hh) (perform_wait hbtf) ?_
  refine .line .read hrun hop rfl rfl (.inr hh) (perform_recv hrx) ?_
  refine .line .read hrun hop rfl rfl (.inl rfl) (perform_push hroom) ?_
  refine .nil_of_eq ?_
  simp only [readBulkRound, append_cons_cons]
  rfl

/-- The state after the rounds that read `front`, the last byte read being `v` (R86, R87). -/
def readBulkLooped (v : Byte) (front more : List Byte) (s : State) : State := { s with
  k := 0, rx := more, rxb := v, sink := s.sink ++ front, rem := 3, s1Latch := false, upc := .r86_3,
  trace := s.trace ++ front.flatMap (fun b => [.s1 s.stat1, .dr b, .push b]) }

/-- The loop: a round for every byte but the last three, by induction on these bytes (R86, R87). -/
theorem readBulk_loop (hrun : s.fsm = .run) (hop : s.op = Mnemonic.read.op) (hu : s.upc = .r86_3)
    (hk : s.k = 0) (hlatch : s.s1Latch = false) (hrem : s.rem.toNat = front.length + 3) (hh : addrHeld s = false)
    (hbtf : btfOf s.cfg.layout s.stat1 = true) (hrx : s.rx = front ++ more)
    (hroom : s.sink.length + front.length ≤ s.cfg.sinkCap) :
    ∃ v, Turns (4 * front.length) s (readBulkLooped v front more s) := by
  induction front generalizing s with
  | nil =>
    have hrem' : s.rem = 3 := BitVec.eq_of_toNat_eq hrem
    refine ⟨s.rxb, .nil_of_eq ?_⟩
    simp only [readBulkLooped, List.flatMap_nil, List.append_nil, ← hk, ← hlatch, ← hrem', ← hu]
    rw [show more = s.rx from hrx.symm]
  | cons b front ih =>
    simp only [List.length_cons] at hrem hroom
    have hround := readBulk_round hrun hop hu (by omega) hh hbtf hrx (by omega)
    have hnat : (s.rem - 1).toNat = front.length + 3 := by bv_omega
    obtain ⟨v, hv⟩ := ih (s := readBulkRound b (front ++ more) s) hrun hop rfl rfl rfl hnat hh hbtf rfl
      (by simp only [readBulkRound, List.length_append, List.length_singleton]; omega)
    refine ⟨v, ?_⟩
    rw [List.length_cons, Nat.mul_succ, Nat.add_comm]
    refine (hround.trans hv).congr ?_
    simp only [readBulkLooped, readBulkRound, List.flatMap_cons, List.append_assoc, List.cons_append, List.nil_append]

/-- The last three bytes: ACK cleared before the first, STOP requested before the second (R86.7 to R86.18). -/
theorem readBulk_tail (hrun : s.fsm = .run) (hop : s.op = Mnemonic.read.op) (hu : s.upc = .r86_3)
    (hrem : s.rem.toNat ≤ 3) (hh : addrHeld s = false) (hbtf : btfOf s.cfg.layout s.stat1 = true)
    (hrxne : rxneOf s.cfg.layout s.stat1 = true) (hrx : s.rx = x :: y :: z :: more)
    (hroom : s.sink.length + 3 ≤ s.cfg.sinkCap) : Turns 13 s { s with
      ack := false, im := false, stop := true, k := 0, rx := more, rxb := z, sink := s.sink ++ [x, y, z],
      rem := s.rem - 1 - 1 - 1, s1Latch := false, upc := .r86_19,
      trace := s.trace ++ [.s1 s.stat1, .cw .ack false, .im true, .dr x, .push x, .cw .stop true, .dr y, .push y,
        .im false, .s1 s.stat1, .dr z, .push z] } := by
  have hfirst : s.sink.length < s.cfg.sinkCap := by omega
  have hsecond : (s.sink ++ [x]).length < s.cfg.sinkCap := by simp; omega
  have hthird : (s.sink ++ [x] ++ [y]).length < s.cfg.sinkCap := by simp; omega
  cases s
  refine .line .read hrun hop hu rfl (.inl rfl) (perform_testRem_done hrem) ?_
  refine .line .read hrun hop rfl rfl (.inr hh) (perform_wait hbtf) ?_
  refine .line .read hrun hop rfl rfl (.inl rfl) perform_ctlClr ?_
  refine .line .read hrun hop rfl rfl (.inl rfl) rfl ?_
  refine .line .read hrun hop rfl rfl (.inr hh) (perform_recv hrx) ?_
  refine .line .read hrun hop rfl rfl (.inl rfl) (perform_push hfirst) ?_
  refine .line .read hrun hop rfl rfl (.inr hh) (perform_ctlSet rfl) ?_
  refine .line .read hrun hop rfl rfl (.inr hh) (perform_recv rfl) ?_
  refine .line .read hrun hop rfl rfl (.inl rfl) (perform_push hsecond) ?_
  refine .line .read hrun hop rfl rfl (.inl rfl) rfl ?_
  refine .line .read hrun hop rfl rfl (.inr hh) (perform_wait hrxne) ?_
  refine .line .read hrun hop rfl rfl (.inr hh) (perform_recv rfl) ?_
  refine .line .read hrun hop rfl rfl (.inl rfl) (perform_push hthird) ?_
  refine .nil_of_eq ?_
  simp only [append_cons_cons]
  rfl

/-- The end, STOP read as 0 (R86.19 to R86.21). -/
theorem readBulk_end (hrun : s.fsm = .run) (hop : s.op = Mnemonic.read.op) (hu : s.upc = .r86_19)
    (hstop : s.stop = false) : Turns 3 s { s with
      k := 0, ack := true, s1Latch := false, status := 0, site := 0, fsm := .idle, upc := .idle,
      trace := s.trace ++ [.cr .stop false, .cw .ack true, .done 0 0] } := by
  cases s
  cases hstop
  refine .line .read hrun hop hu rfl (.inl rfl) (perform_wait rfl) ?_
  refine .line .read hrun hop rfl rfl (.inl rfl) (perform_ctlSet rfl) ?_
  refine .line .read hrun hop rfl rfl (.inl rfl) rfl ?_
  refine .nil_of_eq ?_
  simp only [append_cons_cons]
  rfl

/-- The state that a READ of the bytes `front` and three more leaves, from the state at the wait for ADDR (R90). -/
def readBulkDone (front : List Byte) (x y z : Byte) (more : List Byte) (s : State) : State := { s with
  agenda := [], k := 0, rem := 0, rxb := z, im := false, stop := false, ack := true,
  stat1 := s.stat1Cleared, addrSent := false, s1Latch := false, rx := more, sink := s.sink ++ front ++ [x, y, z],
  status := 0, site := 0, fsm := .idle, upc := .idle,
  trace := s.trace ++ [.s1 s.stat1, .s1 s.stat1, .s2 s.stat2]
    ++ front.flatMap (fun b => [.s1 s.stat1Cleared, .dr b, .push b])
    ++ [.s1 s.stat1Cleared, .cw .ack false, .im true, .dr x, .push x, .cw .stop true, .dr y, .push y,
      .im false, .s1 s.stat1Cleared, .dr z, .push z, .cr .stop false, .cw .ack true, .done 0 0] }

/-- A READ of three bytes or more from the wait for ADDR on, the controller clearing STOP before it is polled. -/
theorem readBulk_run {n : Count} (hn : n.toNat = front.length + 3) (h : s.ReadReady n (front ++ [x, y, z] ++ more)
    (List.replicate (4 * n.toNat + 5) .sequencer ++ [.clearStop])) :
    Sys2Proof.core.run (4 * n.toNat + 9) s = .next (readBulkDone front x y z more s) := by
  have hv : readVariant s.n = .bulkRead := readVariant_bulk (by rw [h.count]; omega)
  have hroom := h.room
  obtain ⟨v, hloop⟩ := readBulk_loop (front := front) (more := x :: y :: z :: more) (s := addrClearedAt .r86_3 s)
    h.run h.op rfl rfl rfl ((congrArg BitVec.toNat h.rem).trans hn) (addrOf_withoutAddr _ _) h.btf (h.received.trans (List.append_assoc _ _ _))
    (by change s.sink.length + _ ≤ s.cfg.sinkCap; omega)
  have htail := readBulk_tail (x := x) (y := y) (z := z) (more := more) (s := readBulkLooped v front
      (x :: y :: z :: more) (addrClearedAt .r86_3 s)) h.run h.op rfl (Nat.le_refl 3)
    (addrOf_withoutAddr _ _) h.btf h.rxne rfl
    (by change (s.sink ++ front).length + _ ≤ s.cfg.sinkCap; rw [List.length_append]; omega)
  have hturns := (readBulk_clearing h.run h.op h.upc hv h.held).trans (hloop.trans htail)
  have hcount : 4 * n.toNat + 5 = 4 + (4 * front.length + 13) := by omega
  rw [show 4 * n.toNat + 9 = 4 + (4 * front.length + 13) + (3 + 1) by omega]
  refine Turns.run_clearStop hturns ?_ (hcount ▸ h.agenda)
  refine Turns.congr (readBulk_end h.run h.op rfl rfl) ?_
  simp only [readBulkDone, readBulkLooped, addrClearedAt, List.append_assoc, List.cons_append, List.nil_append]
  rfl

end Bulk

/-- Settles O35: the launch, then the run of three bytes or more from the wait for ADDR on, in the same way for both
controllers. -/
theorem readBulkCompletes : Obligations.ReadBulkCompletes := by
  unfold Obligations.ReadBulkCompletes
  constructor
  · intro s a x y z n front rest more hn ha hidle hu hcmd hcfg hanswers hroom hrx
    have hn0 : n ≠ 0 := by rintro rfl; exact absurd hn.symm (Nat.succ_ne_zero _)
    rw [show 4 * n.toNat + 13 = 8 + (4 * n.toNat + 5) by omega, List.replicate_add, List.append_assoc] at ha
    rw [show 4 * n.toNat + 17 = 8 + (4 * n.toNat + 9) by omega,
      read_run_answering (f := readBulkDone front x y z more) (fun u h => readBulk_run hn (hrx ▸ h)) ha hidle hcmd hn0
        hcfg hanswers hroom]
    simp only [readBulkDone, addressPhase, readBegun, hidle, hu, List.append_assoc, List.cons_append, List.nil_append]
    rfl
  · intro s a x y z n front rest more w hn ha hidle hu hcmd hcfg hanswers hroom hrx
    have hn0 : n ≠ 0 := by rintro rfl; exact absurd hn.symm (Nat.succ_ne_zero _)
    rw [List.append_assoc, List.append_assoc] at ha
    rw [show 4 * n.toNat + 18 = 8 + (4 * n.toNat + 9 + 1) by omega,
      read_run_launched (f := readBulkDone front x y z more) (fun u h => readBulk_run hn (hrx ▸ h)) ha hidle hcmd hn0
        hcfg hanswers hroom]
    simp only [readBulkDone, addressPhase, readBegun, hidle, hu, List.append_assoc, List.cons_append, List.nil_append]
    rfl

end Sys2Proof.Machine
end

section
/-! PROOFS. The run of WRITE that completes: clearing, the loop over the payload, the stop request and its end (R95, R98,
R128). -/

namespace Sys2Proof.Machine

section Write

variable {s : State} {l l' : Label} {b : Byte} {todo : List Byte}

/-- The loop test of WRITE, a byte still to be sent (R95.3). -/
theorem perform_testIdx_more (h : s.idx.toNat < s.n.toNat) : perform (.testIdx l l') s = .next (s.goto l) := by
  rw [perform, if_pos h]

/-- The loop test of WRITE, every byte sent (R95.3). -/
theorem perform_testIdx_done (h : s.n.toNat ≤ s.idx.toNat) : perform (.testIdx l l') s = .next (s.goto l') := by
  rw [perform, if_neg (Nat.not_lt.mpr h)]

/-- A payload byte is sent outside an address phase (R95.4). -/
theorem perform_sendPayload (h : s.pl[s.idx.toNat]? = some b) (hdue : s.startDue = false) (hsent : s.addrSent = false) :
    perform (.sendPayload l) s = .next (State.goto l { s with
      tx := s.tx ++ [b], s1Latch := false, trace := s.trace ++ [.dw b] }) := by
  refine sendPayloadByte_eq_next.mpr ⟨b, h, ?_⟩
  cases s
  cases hdue
  cases hsent
  rfl

/-- From the wait for ADDR to its clearing (R69, R95.3). -/
theorem write_clearing (hrun : s.fsm = .run) (hop : s.op = Mnemonic.write.op) (hu : s.upc = .r68_3)
    (hh : addrHeld s = true) : Turns 3 s (addrClearedAt .r95_3 s) := by
  cases s
  refine .line .write hrun hop hu rfl (.inl rfl) (perform_wait_addr hh) ?_
  refine .line .write hrun hop rfl rfl (.inl rfl) rfl ?_
  refine .line .write hrun hop rfl rfl (.inl rfl) (perform_stat2_of_pair rfl hh) ?_
  refine .nil_of_eq ?_
  simp only [addrClearedAt, append_cons_cons]
  rfl

/-- The state after a round of the loop that sends `b` (R95, R98). -/
def writeRound (b : Byte) (s : State) : State := { s with
  k := 0, idx := s.idx + 1, tx := s.tx ++ [b], s1Latch := true, upc := .r95_3,
  trace := s.trace ++ [.dw b, .s1 s.stat1] }

/-- One round of the loop: a byte is sent and its transfer awaited (R95.3 to R95.6). -/
theorem write_round (hrun : s.fsm = .run) (hop : s.op = Mnemonic.write.op) (hu : s.upc = .r95_3)
    (hidx : s.idx.toNat < s.n.toNat) (hb : s.pl[s.idx.toNat]? = some b) (hdue : s.startDue = false)
    (hsent : s.addrSent = false) (hh : addrHeld s = false) (hbtf : btfOf s.cfg.layout s.stat1 = true) :
    Turns 4 s (writeRound b s) := by
  cases s
  refine .line .write hrun hop hu rfl (.inl rfl) (perform_testIdx_more hidx) ?_
  refine .line .write hrun hop rfl rfl (.inr hh) (perform_sendPayload hb hdue hsent) ?_
  refine .line .write hrun hop rfl rfl (.inr hh) (perform_wait hbtf) ?_
  refine .line .write hrun hop rfl rfl (.inl rfl) rfl ?_
  refine .nil_of_eq ?_
  simp only [writeRound, append_cons_cons]
  rfl

/-- The state after the rounds that send `todo`, `armed` saying whether a STAT1 read came last (R95, R98). -/
def writeLooped (armed : Bool) (todo : List Byte) (s : State) : State := { s with
  k := 0, idx := s.n, tx := s.tx ++ todo, s1Latch := armed, upc := .r95_3,
  trace := s.trace ++ todo.flatMap (fun b => [.dw b, .s1 s.stat1]) }

/-- The loop: a round for every byte of the payload, by induction on those still to be sent (R95, R98). -/
theorem write_loop {sent : List Byte} (hrun : s.fsm = .run) (hop : s.op = Mnemonic.write.op) (hu : s.upc = .r95_3)
    (hk : s.k = 0) (hpl : s.pl = sent ++ todo) (hn : s.n.toNat = sent.length + todo.length)
    (hidx : s.idx.toNat = sent.length) (hdue : s.startDue = false) (hsent : s.addrSent = false)
    (hh : addrHeld s = false) (hbtf : btfOf s.cfg.layout s.stat1 = true) :
    ∃ armed, Turns (4 * todo.length) s (writeLooped armed todo s) := by
  induction todo generalizing s sent with
  | nil =>
    have hidx' : s.idx = s.n := BitVec.eq_of_toNat_eq (hidx.trans hn.symm)
    refine ⟨s.s1Latch, .nil_of_eq ?_⟩
    cases s
    cases hk
    cases hu
    cases hidx'
    simp only [writeLooped, List.flatMap_nil, List.append_nil]
  | cons b todo ih =>
    rw [List.length_cons] at hn
    have hb : s.pl[s.idx.toNat]? = some b := by simp [hpl, hidx]
    have hround := write_round hrun hop hu (by omega) hb hdue hsent hh hbtf
    have hnat : (s.idx + 1).toNat = (sent ++ [b]).length := by
      have := s.n.isLt
      rw [List.length_append, List.length_singleton]
      bv_omega
    obtain ⟨armed, hloop⟩ := ih (sent := sent ++ [b]) (s := writeRound b s) hrun hop rfl rfl
      (hpl.trans (List.append_cons _ _ _))
      (by simp only [writeRound, List.length_append, List.length_singleton]; omega) hnat hdue hsent hh hbtf
    refine ⟨armed, ?_⟩
    rw [List.length_cons, Nat.mul_succ, Nat.add_comm]
    refine (hround.trans hloop).congr ?_
    simp only [writeLooped, writeRound, List.flatMap_cons, List.append_assoc, List.cons_append, List.nil_append]

/-- The stop request once every byte is sent (R95.3, R95.7). -/
theorem write_stop (hrun : s.fsm = .run) (hop : s.op = Mnemonic.write.op) (hu : s.upc = .r95_3)
    (hidx : s.n.toNat ≤ s.idx.toNat) (hh : addrHeld s = false) : Turns 2 s { s with
      stop := true, s1Latch := false, upc := .r95_8, trace := s.trace ++ [.cw .stop true] } := by
  cases s
  refine .line .write hrun hop hu rfl (.inl rfl) (perform_testIdx_done hidx) ?_
  refine .line .write hrun hop rfl rfl (.inr hh) (perform_ctlSet rfl) ?_
  exact .nil _

/-- The end, STOP read as 0 (R95.8, R95.9). -/
theorem write_end (hrun : s.fsm = .run) (hop : s.op = Mnemonic.write.op) (hu : s.upc = .r95_8)
    (hstop : s.stop = false) : Turns 2 s { s with
      k := 0, s1Latch := false, status := 0, site := 0, fsm := .idle, upc := .idle,
      trace := s.trace ++ [.cr .stop false, .done 0 0] } := by
  cases s
  cases hstop
  refine .line .write hrun hop hu rfl (.inl rfl) (perform_wait rfl) ?_
  refine .line .write hrun hop rfl rfl (.inl rfl) rfl ?_
  refine .nil_of_eq ?_
  simp only [append_cons_cons]
  rfl

/-- A WRITE of `p` at the wait for ADDR, with ADDR and the flag awaited after it shown, and `g` on the agenda. -/
structure State.WriteReady (n : Count) (p : List Byte) (g : List Move) (s : State) : Prop where
  run : s.fsm = .run
  op : s.op = Mnemonic.write.op
  upc : s.upc = .r68_3
  count : s.n = n
  payload : s.pl = p
  first : s.idx = 0
  noStart : s.startDue = false
  held : addrHeld s = true
  btf : btfOf s.cfg.layout (withoutAddr s.cfg.layout s.stat1) = true
  agenda : s.agenda = g

/-- The state that a WRITE of `p` leaves, from the state at the wait for ADDR (R95, R98). -/
def writeDone (p : List Byte) (s : State) : State := { s with
  agenda := [], k := 0, idx := s.n, stop := false, stat1 := s.stat1Cleared, addrSent := false, s1Latch := false,
  tx := s.tx ++ p, status := 0, site := 0, fsm := .idle, upc := .idle,
  trace := s.trace ++ [.s1 s.stat1, .s1 s.stat1, .s2 s.stat2]
    ++ p.flatMap (fun b => [.dw b, .s1 s.stat1Cleared])
    ++ [.cw .stop true, .cr .stop false, .done 0 0] }

/-- A WRITE from the wait for ADDR on, the controller clearing STOP before it is polled. -/
theorem write_run {n : Count} {p : List Byte} (hn : p.length = n.toNat)
    (h : s.WriteReady n p (List.replicate (4 * n.toNat + 5) .sequencer ++ [.clearStop])) :
    Sys2Proof.core.run (4 * n.toNat + 8) s = .next (writeDone p s) := by
  obtain ⟨armed, hloop⟩ := write_loop (sent := []) (todo := p) (s := addrClearedAt .r95_3 s)
    h.run h.op rfl rfl h.payload (by simp [addrClearedAt, h.count, hn]) (by simp [addrClearedAt, h.first]) h.noStart rfl (addrOf_withoutAddr _ _) h.btf
  have hstop := write_stop (s := writeLooped armed p (addrClearedAt .r95_3 s)) h.run h.op rfl (Nat.le_refl _)
    (addrOf_withoutAddr _ _)
  have hturns := (write_clearing h.run h.op h.upc h.held).trans (hloop.trans hstop)
  have hcount : 4 * n.toNat + 5 = 3 + (4 * p.length + 2) := by omega
  rw [show 4 * n.toNat + 8 = 3 + (4 * p.length + 2) + (2 + 1) by omega]
  refine Turns.run_clearStop hturns ?_ (hcount ▸ h.agenda)
  refine Turns.congr (write_end h.run h.op rfl rfl) ?_
  simp only [writeDone, writeLooped, addrClearedAt, List.append_assoc, List.cons_append, List.nil_append]

/-- A WRITE launched in `s`, at the wait for ADDR. -/
theorem writeLaunched_turns {a : Byte} {n : Count} {p rest : List Byte} (hidle : s.fsm = .idle)
    (hcmd : s.cmd = encode (.write a n p) ++ rest) (hlen : p.length = n.toNat) (hn : 1 ≤ n.toNat)
    (hentered : masterEntered s.cfg s.stat2 = true) (hsb : sbOf s.cfg.layout s.stat1 = true) :
    Turns 7 s (addressPhase (writeBegun a n p rest s)) := by
  have hn0 : n ≠ 0 := by rintro rfl; exact absurd hn (by decide)
  exact (writeBegun_turns hidle hcmd hlen hn0).trans (addressPhase_turns (m := .write) rfl rfl rfl rfl hentered hsb)

end Write

/-- Settles O39: the launch, then the run from the wait for ADDR on, in the same way for both controllers. -/
theorem writeCompletes : Obligations.WriteCompletes := by
  unfold Obligations.WriteCompletes
  constructor
  · intro s a n p rest hlen hn ha hidle hu hcmd hcfg hanswers
    obtain ⟨hsb, hh, hbtf, -, hentered⟩ := answersAtOnce_iff.mp hanswers
    have hbtf' := (byteFlags_withoutAddr hcfg s.stat1).1.trans hbtf
    rw [show 4 * n.toNat + 12 = 7 + (4 * n.toNat + 5) by omega, List.replicate_add, List.append_assoc] at ha
    rw [show 4 * n.toNat + 15 = 7 + (4 * n.toNat + 8) by omega,
      run_after_turns (writeLaunched_turns hidle hcmd hlen hn hentered hsb) ha
        (write_run hlen ⟨rfl, rfl, rfl, rfl, rfl, rfl, rfl, hh, hbtf', rfl⟩)]
    simp only [writeDone, addressPhase, writeBegun, State.withAgenda, hidle, hu, List.append_assoc, List.cons_append,
      List.nil_append]
    rfl
  · intro s a n p rest w hlen hn ha hidle hu hcmd hcfg hanswers
    obtain ⟨hh, hsb, hentered, hw, hbtf, -⟩ := answersFromLaunch_flags hanswers
    have hbtf' := (byteFlags_withoutAddr hcfg w).1.trans hbtf
    rw [List.append_assoc, List.append_assoc] at ha
    rw [show 4 * n.toNat + 16 = 7 + (4 * n.toNat + 8 + 1) by omega,
      run_after_launch (writeLaunched_turns hidle hcmd hlen hn hentered hsb) ha rfl hh rfl hw
        (write_run hlen ⟨rfl, rfl, rfl, rfl, rfl, rfl, rfl, hw, hbtf', rfl⟩)]
    simp only [writeDone, addressPhase, writeBegun, hidle, hu, List.append_assoc, List.cons_append, List.nil_append]
    rfl

end Sys2Proof.Machine
end

section
/-! PROOFS. The opcode map in terms of the fields of a word, and from it that the encoder and the decoder are inverse to
each other, what each row selects and what is illegal (R51, R54, R56, R57, R58). -/

namespace Sys2Proof

/-! ### Words from bytes and from fields -/

/-- The bytes of a word are those it was made of (R58). -/
theorem CmdWord.bytes_ofBytes (b0 b1 b2 b3 : Byte) :
    CmdWord.bytes (CmdWord.ofBytes b0 b1 b2 b3) = [b0, b1, b2, b3] := by
  -- unfolded in a pass of its own: only then is the word's width the sum that the rules on `++` match
  simp only [CmdWord.bytes, CmdWord.ofBytes, List.cons.injEq, and_true]
  simp only [BitVec.extractLsb'_append_eq_of_le, Nat.reduceLeDiff, Nat.reduceSub, BitVec.extractLsb'_eq_self, and_true]
  exact ⟨BitVec.extractLsb'_append_eq_right, BitVec.extractLsb'_append_eq_right, BitVec.extractLsb'_append_eq_right⟩

/-- A word is its fields side by side (R51). -/
theorem CmdWord.fields_append (w : CmdWord) :
    CmdWord.op w ++ CmdWord.z3 w ++ CmdWord.d w ++ CmdWord.a w ++ CmdWord.n w = w := by
  unfold CmdWord.op CmdWord.z3 CmdWord.d CmdWord.a CmdWord.n
  rw [BitVec.extractLsb'_append_extractLsb'_eq_extractLsb' (by decide),
    BitVec.extractLsb'_append_extractLsb'_eq_extractLsb' (by decide),
    BitVec.extractLsb'_append_extractLsb'_eq_extractLsb' (by decide),
    BitVec.extractLsb'_append_extractLsb'_eq_extractLsb' (by decide)]
  exact BitVec.extractLsb'_eq_self

/-- Words are equal when their fields are (R51). -/
theorem CmdWord.eq_iff_fields {v w : CmdWord} : v = w ↔ CmdWord.op v = CmdWord.op w ∧ CmdWord.z3 v = CmdWord.z3 w
    ∧ CmdWord.d v = CmdWord.d w ∧ CmdWord.a v = CmdWord.a w ∧ CmdWord.n v = CmdWord.n w := by
  refine ⟨fun h => by simp [h], fun ⟨hop, hz, hd, ha, hn⟩ => ?_⟩
  rw [← CmdWord.fields_append v, ← CmdWord.fields_append w, hop, hz, hd, ha, hn]

/-- A mask falls on the fields of a word one by one (R51). -/
theorem CmdWord.fields_and (v w : CmdWord) : CmdWord.op (v &&& w) = CmdWord.op v &&& CmdWord.op w
    ∧ CmdWord.z3 (v &&& w) = CmdWord.z3 v &&& CmdWord.z3 w ∧ CmdWord.d (v &&& w) = CmdWord.d v &&& CmdWord.d w
    ∧ CmdWord.a (v &&& w) = CmdWord.a v &&& CmdWord.a w ∧ CmdWord.n (v &&& w) = CmdWord.n v &&& CmdWord.n w :=
  ⟨BitVec.extractLsb'_and, BitVec.extractLsb'_and, BitVec.extractLsb'_and, BitVec.extractLsb'_and,
    BitVec.extractLsb'_and⟩

/-- A word whose `z3` is 0 is made of its other fields (R51). -/
theorem CmdWord.ofFields_fields {w : CmdWord} (hz : CmdWord.z3 w = 0) :
    CmdWord.ofFields (CmdWord.op w) (CmdWord.d w) (CmdWord.a w) (CmdWord.n w) = w := by
  conv => rhs; rw [← CmdWord.fields_append w, hz]
  rfl

/-- The bit is what the direction it names says (R51). -/
theorem Dir.bit_ofBit (b : BitVec 1) : (Dir.ofBit b).bit = b := by
  revert b
  decide

/-! ### The must-be-zero bits of a format -/

/-- Whether the format of row `m` has the operand `d` (R51). -/
def Mnemonic.hasD : Mnemonic → Bool
  | .sendAddr => true
  | .genStart | .clrAddr | .writeByte | .genStop | .read | .write => false

/-- Whether the format of row `m` has the operand `a` (R51). -/
def Mnemonic.hasA : Mnemonic → Bool
  | .sendAddr | .writeByte | .read | .write => true
  | .genStart | .clrAddr | .genStop => false

/-- Whether the format of row `m` has the operand `n` (R51). -/
def Mnemonic.hasN : Mnemonic → Bool
  | .read | .write => true
  | .genStart | .sendAddr | .clrAddr | .writeByte | .genStop => false

/-- The must-be-zero bits of the format of row `m` are 0 in `w` (R51). -/
def CmdWord.zerosClear (m : Mnemonic) (w : CmdWord) : Prop :=
  CmdWord.z3 w = 0 ∧ (m.hasD = false → CmdWord.d w = 0) ∧ (m.hasA = false → CmdWord.a w = 0)
    ∧ (m.hasN = false → CmdWord.n w = 0)

/-- The mask of a field that is an operand, or must be zero (R54). -/
def fieldMask (width : Nat) (operand : Bool) : BitVec width := if operand then 0 else BitVec.allOnes width

/-- A field under its mask is 0 exactly when it is an operand or is 0. -/
theorem and_fieldMask_eq_zero {width : Nat} (operand : Bool) (x : BitVec width) :
    x &&& fieldMask width operand = 0 ↔ (operand = false → x = 0) := by
  cases operand <;> simp [fieldMask]

/-- The masks of the opcode map cover the opcode and what the format leaves out (R51, R54). -/
theorem opcodeMap_mask : ∀ r ∈ opcodeMap, CmdWord.op r.mask = BitVec.allOnes 4 ∧ CmdWord.z3 r.mask = BitVec.allOnes 3
    ∧ CmdWord.d r.mask = fieldMask 1 r.name.hasD ∧ CmdWord.a r.mask = fieldMask 8 r.name.hasA
    ∧ CmdWord.n r.mask = fieldMask 16 r.name.hasN := by
  decide

/-- A match of the opcode map is its opcode and zeros (R54). -/
theorem opcodeMap_pattern : ∀ r ∈ opcodeMap, CmdWord.op r.pattern = r.name.op ∧ CmdWord.z3 r.pattern = 0
    ∧ CmdWord.d r.pattern = 0 ∧ CmdWord.a r.pattern = 0 ∧ CmdWord.n r.pattern = 0 := by
  decide

/-- A row is selected by the words with its opcode and the must-be-zero bits of its format 0 (R51, R54). -/
theorem selects_iff {r : OpcodeRow} (hr : r ∈ opcodeMap) (w : CmdWord) :
    r.selects w = true ↔ CmdWord.op w = r.name.op ∧ CmdWord.zerosClear r.name w := by
  obtain ⟨hop, hz, hd, ha, hn⟩ := CmdWord.fields_and w r.mask
  obtain ⟨mop, mz, md, ma, mn⟩ := opcodeMap_mask r hr
  obtain ⟨pop, pz, pd, pa, pn⟩ := opcodeMap_pattern r hr
  rw [OpcodeRow.selects, beq_iff_eq, CmdWord.eq_iff_fields, hop, hz, hd, ha, hn, mop, mz, md, ma, mn, pop, pz, pd, pa,
    pn, BitVec.and_allOnes, BitVec.and_allOnes, and_fieldMask_eq_zero, and_fieldMask_eq_zero, and_fieldMask_eq_zero]
  rfl

/-- Every command has a row (R54). -/
theorem exists_row (m : Mnemonic) : ∃ r ∈ opcodeMap, r.name = m := by
  cases m <;> decide

/-- A word decodes to a row exactly when it selects it (R54). -/
theorem decodeWord_eq_ok_iff {r : OpcodeRow} (hr : r ∈ opcodeMap) (w : CmdWord) :
    decodeWord w = .ok r.name ↔ r.selects w = true := by
  refine ⟨fun h => ?_, decodeWord_of_selects hr⟩
  unfold decodeWord at h
  split at h
  next r' hf =>
    have hsel : r'.selects w = true := by simpa using List.find?_some hf
    rw [selects_iff hr, ← Except.ok.inj h]
    exact (selects_iff (List.mem_of_find?_eq_some hf) w).mp hsel
  next => split at h <;> cases h

/-- A word decodes to a command exactly when it has its opcode and the must-be-zero bits of its format 0 (R51, R54). -/
theorem decodeWord_eq_ok_iff_fields (m : Mnemonic) (w : CmdWord) :
    decodeWord w = .ok m ↔ CmdWord.op w = m.op ∧ CmdWord.zerosClear m w := by
  obtain ⟨r, hr, rfl⟩ := exists_row m
  rw [decodeWord_eq_ok_iff hr, selects_iff hr]

/-! ### The two round trips -/

/-- Settles O1: the encoded word selects the command's row, and its fields are the operands. -/
theorem decodeEncodeRoundTrip : Obligations.DecodeEncodeRoundTrip := by
  unfold Obligations.DecodeEncodeRoundTrip
  exact fun _ rest hwf => decode_encode_append hwf rest

/-- The word of the command that a word decodes to is that word: the fields its format leaves out are 0 (R51, R54). -/
theorem encodeWord_of_decodeWord {w : CmdWord} {m : Mnemonic} (h : decodeWord w = .ok m) :
    encodeWord (m.command w) = w := by
  obtain ⟨hop, hz, hd, ha, hn⟩ := (decodeWord_eq_ok_iff_fields m w).mp h
  have hw := CmdWord.ofFields_fields hz
  rw [hop] at hw
  cases m
  case genStart | clrAddr | genStop => rwa [hd rfl, ha rfl, hn rfl] at hw
  case sendAddr => rwa [hn rfl, ← Dir.bit_ofBit (CmdWord.d w)] at hw
  case writeByte => rwa [hd rfl, hn rfl] at hw
  case read | write => rwa [hd rfl] at hw

/-- What a command with its payload is made of: the word is that of the command without it, and the payload and the
rest are the stream (R57). -/
theorem takePayload_eq_command {i j : Instr} {bs rest : List Byte} (h : takePayload j bs = .command i rest) :
    encodeWord i = encodeWord j ∧ i.payload ++ rest = bs := by
  cases j
  case write a n p =>
    simp only [takePayload] at h
    split at h
    · cases h; exact ⟨rfl, List.take_append_drop _ _⟩
    · cases h
  all_goals cases h; exact ⟨rfl, rfl⟩

/-- A stream from which a command is read begins with the four bytes of a word that selects a row (R57). -/
theorem decode_eq_command {bs rest : List Byte} {i : Instr} (h : decode bs = .command i rest) :
    ∃ w m tail, bs = CmdWord.bytes w ++ tail ∧ decodeWord w = .ok m
      ∧ takePayload (m.command w) tail = .command i rest := by
  unfold decode at h
  split at h
  next b0 b1 b2 b3 tail =>
    refine ⟨CmdWord.ofBytes b0 b1 b2 b3, ?_⟩
    dsimp only at h
    split at h
    next m hm => exact ⟨m, tail, by rw [CmdWord.bytes_ofBytes]; rfl, hm, h⟩
    next => cases h
  next => cases h

/-- Settles O2: the stream is the word's bytes, then the payload and the rest, and the word is the command's. -/
theorem encodeDecodeRoundTrip : Obligations.EncodeDecodeRoundTrip := by
  unfold Obligations.EncodeDecodeRoundTrip
  intro bs rest i h
  refine ⟨Machine.decode_wf h, ?_⟩
  obtain ⟨w, m, tail, rfl, hw, hp⟩ := decode_eq_command h
  obtain ⟨hword, htail⟩ := takePayload_eq_command hp
  rw [encode, hword, encodeWord_of_decodeWord hw, List.append_assoc, htail]

/-! ### Rows and illegal words -/

/-- Settles O3: a word decodes to a row exactly when it selects it, row by row. -/
theorem opcodeMapRows : Obligations.OpcodeMapRows := by
  unfold Obligations.OpcodeMapRows
  intro w
  have hrow : ∀ r ∈ opcodeMap, (decodeWord w = .ok r.name ↔ w &&& r.mask = r.pattern) :=
    fun r hr => (decodeWord_eq_ok_iff hr w).trans beq_iff_eq
  simp only [opcodeMap, List.forall_mem_cons, List.not_mem_nil, false_implies, implies_true, and_true] at hrow
  exact hrow

/-- A word that selects no row is illegal: its opcode is in a row and a must-be-zero bit is set, or it is in none
(R56). -/
theorem decodeWord_of_no_row {w : CmdWord} (h : ∀ r ∈ opcodeMap, r.selects w = false) :
    decodeWord w = if opcodeMap.any (fun r => r.name.op == CmdWord.op w) then .error .mustBeZeroSet
      else .error .undefinedOpcode := by
  have hf : opcodeMap.find? (fun r => r.selects w) = none := List.find?_eq_none.mpr (by simpa using h)
  rw [decodeWord, hf]

/-- An opcode that is in no row is undefined (R56 a). -/
theorem decodeWord_of_undefined_op {w : CmdWord} (h : ∀ m : Mnemonic, CmdWord.op w ≠ m.op) :
    decodeWord w = .error .undefinedOpcode := by
  have hnone : ∀ r ∈ opcodeMap, r.selects w = false :=
    fun r hr => Bool.eq_false_iff.mpr fun hs => h r.name (op_of_selects hr hs)
  have hop : ¬ opcodeMap.any (fun r => r.name.op == CmdWord.op w) = true := by
    simpa using fun (r : OpcodeRow) _ => (h r.name).symm
  rw [decodeWord_of_no_row hnone, if_neg hop]

/-- A word with the opcode of a row and a must-be-zero bit of its format set is illegal (R56 b). -/
theorem decodeWord_of_zero_set {w : CmdWord} {m : Mnemonic} (hop : CmdWord.op w = m.op)
    (hz : ¬ CmdWord.zerosClear m w) : decodeWord w = .error .mustBeZeroSet := by
  have hnone : ∀ r ∈ opcodeMap, r.selects w = false := by
    refine fun r hr => Bool.eq_false_iff.mpr fun hs => hz ?_
    obtain ⟨hop', hz'⟩ := (selects_iff hr w).mp hs
    rwa [Machine.Mnemonic.op_injective (hop.symm.trans hop')]
  have hany : opcodeMap.any (fun r => r.name.op == CmdWord.op w) = true := by
    obtain ⟨r, hr, rfl⟩ := exists_row m
    exact List.any_eq_true.mpr ⟨r, hr, beq_iff_eq.mpr hop.symm⟩
  rw [decodeWord_of_no_row hnone, if_pos hany]

/-- An illegal word is read from its four bytes alone (R56). -/
theorem decode_bytes_append_of_illegal {w : CmdWord} {why : IllegalWord} (hw : decodeWord w = .error why)
    (rest : List Byte) : decode (CmdWord.bytes w ++ rest) = .illegal w why rest := by
  simp only [CmdWord.bytes, List.cons_append, List.nil_append, decode, CmdWord.ofBytes_bytes, hw]

/-- An opcode of R56 (a) is in no row (R54). -/
theorem Mnemonic.op_not_mem_undefined (m : Mnemonic) :
    m.op ∉ [0x0#4, 0x6#4, 0x7#4, 0xA#4, 0xB#4, 0xC#4, 0xD#4, 0xE#4, 0xF#4] := by
  cases m <;> decide

/-- The other opcodes are in a row (R54). -/
theorem exists_mnemonic_of_op {x : BitVec 4} (h : x ∈ [0x1#4, 0x2#4, 0x3#4, 0x4#4, 0x5#4, 0x8#4, 0x9#4]) :
    ∃ m : Mnemonic, x = m.op := by
  simp only [List.mem_cons, List.not_mem_nil, or_false] at h
  rcases h with rfl | rfl | rfl | rfl | rfl | rfl | rfl
  exacts [⟨.genStart, rfl⟩, ⟨.sendAddr, rfl⟩, ⟨.clrAddr, rfl⟩, ⟨.writeByte, rfl⟩, ⟨.genStop, rfl⟩, ⟨.read, rfl⟩,
    ⟨.write, rfl⟩]

/-- The formats by their opcodes (R51, R54). -/
theorem Mnemonic.operands_of_op (m : Mnemonic) : (m.op ≠ 0x2#4 → m.hasD = false)
    ∧ (m.op ∈ [0x1#4, 0x3#4, 0x5#4] → m.hasA = false)
    ∧ (m.op ∈ [0x1#4, 0x2#4, 0x3#4, 0x4#4, 0x5#4] → m.hasN = false) := by
  cases m <;> decide

/-- Settles O5: the opcodes of the first list are those of no row, the others those of the rows with their formats. -/
theorem illegalWordsRefused : Obligations.IllegalWordsRefused := by
  unfold Obligations.IllegalWordsRefused
  refine fun w rest => ⟨fun hop => ?_, fun hop hset => ?_⟩ <;> refine decode_bytes_append_of_illegal ?_ rest
  · exact decodeWord_of_undefined_op fun m hm => m.op_not_mem_undefined (hm ▸ hop)
  · obtain ⟨m, hm⟩ := exists_mnemonic_of_op hop
    obtain ⟨hasD, hasA, hasN⟩ := m.operands_of_op
    rw [hm] at hset
    refine decodeWord_of_zero_set hm fun ⟨hz, hd, ha, hn⟩ => ?_
    rcases hset with h | ⟨hrow, h⟩ | ⟨hrow, h⟩ | ⟨hrow, h⟩
    · exact h hz
    · exact h (hd (hasD hrow))
    · exact h (ha (hasA hrow))
    · exact h (hn (hasN hrow))

/-! ### The words of the spec -/

/-- Settles O4: each word is a fixed value. -/
theorem specWordsDecode : Obligations.SpecWordsDecode := by
  unfold Obligations.SpecWordsDecode
  decide

end Sys2Proof
end

section
/-! PROOFS. The address byte bit by bit, acceptance of what stands at the command port, and what becomes of a command
that is offered while another runs (R52, R53, R55, R56). -/

namespace Sys2Proof.Machine

/-! ### The address byte -/

/-- Only bit 0 of the direction's byte can be set, and it is set for a read (R51). -/
theorem getLsbD_dirByte (d : Dir) (j : Nat) :
    ((Dir.bit d).setWidth 8).getLsbD j = (j == 0 && d == .read) := by
  cases d
  · simp [Dir.bit]
  · cases j <;> simp [Dir.bit]

/-- The mask of `left8` leaves the bits 7:1 (R55). -/
theorem getLsbD_addressMask (j : Nat) : (0xFE : Byte).getLsbD j = (decide (1 ≤ j) && decide (j < 8)) := by
  by_cases h : j < 8
  · interval_cases j <;> rfl
  · simp [h, BitVec.getLsbD_of_ge _ j (Nat.le_of_not_lt h)]

/-- Settles O6: a bit of the address byte is the operand's bit, masked or shifted, or the direction's. -/
theorem addressByteForms : Obligations.AddressByteForms := by
  unfold Obligations.AddressByteForms
  intro a d
  simp only [addrByte, BitVec.getLsbD_or, BitVec.getLsbD_and, BitVec.getLsbD_shiftLeft, getLsbD_dirByte,
    getLsbD_addressMask]
  refine ⟨by simp, fun j h1 h8 => ?_, by simp, fun j h7 => ?_⟩
  · have hj : j ≠ 0 := Nat.ne_of_gt h1
    simp [h1, h8, hj]
  · have h8 : j + 1 < 8 := Nat.succ_lt_succ h7
    simp [h8]

/-! ### Acceptance -/

/-- Settles O8: with an empty agenda the idle sequencer fetches; a command is latched, an illegal word is latched and
ended. -/
theorem acceptanceLatchesCommand : Obligations.AcceptanceLatchesCommand := by
  unfold Obligations.AcceptanceLatchesCommand
  intro s rest ha hidle hu
  rw [step_of_no_agenda ha, sequencerStep_of_idle hidle, fetch]
  refine ⟨fun i hwf hcmd => ?_, fun w why hw hcmd => ?_⟩
  · rw [hcmd, decode_encode_append hwf]
    exact (exec_eq_command i _).trans (command_idle hidle)
  · rw [hcmd, decode_bytes_append_of_illegal hw]
    change Host.Outcome.next _ = _
    rw [hidle, hu]
    rfl

/-! ### Offers while a command runs -/

/-- No line touches the command port: a line commutes with any change of it, so with none (R53). -/
theorem perform_cmd {ln : Line} {s t : State} (hp : perform ln s = .next t) : t.cmd = s.cmd := by
  have hroom : ∀ l, ln = .push l → s.sink.length < s.cfg.sinkCap := by
    rintro l rfl
    exact (pushByte_eq_next.mp hp).1
  have h : perform ln s = .next (t.withPorts (s.sink ++ ln.pushed s) s.pending s.cmd) :=
    perform_withPorts s.sink s.pending s.cmd hp hroom
  rw [hp, Host.Outcome.next.injEq] at h
  rw [h]
  rfl

/-- A move of another agent only adds bytes to the command port (R53). -/
theorem agentMove_cmd {m : Move} {s t : State} (hrun : s.fsm = .run) (h : agentMove m s = .next t) :
    ∃ bs, t.cmd = s.cmd ++ bs := by
  cases m <;> simp only [agentMove, Host.Outcome.next.injEq] at h
  case offer bs => subst h; exact ⟨bs, rfl⟩
  case foreign => simp [foreignAccess, hrun] at h
  case irqRequest => subst h; unfold requestIrq; split <;> exact ⟨[], (List.append_nil _).symm⟩
  case irqHandler => subst h; unfold runHandler; split <;> exact ⟨[], (List.append_nil _).symm⟩
  all_goals
    subst h
    exact ⟨[], (List.append_nil _).symm⟩

/-- Settles O10: an offer is never held off, and while a command runs only an offer touches the command port. -/
theorem commandHeldOffWhileRunning : Obligations.CommandHeldOffWhileRunning := by
  unfold Obligations.CommandHeldOffWhileRunning
  refine fun s => ⟨beq_iff_eq, fun bs rest ha => ?_, fun t hrun h => ?_⟩
  · simp [step, turn, ha, heldOff, agentMove]
  · obtain ⟨rest, hseq | ⟨m, _, hm⟩⟩ := step_cases h
    · cases hseq with
      | accepts _ _ hidle | rejects _ _ hidle | waits hidle => cases hrun.symm.trans hidle
      | performs _ ln _ _ _ _ hp => exact ⟨[], (perform_cmd hp).trans (List.append_nil _).symm⟩
    · exact agentMove_cmd (s := { s with agenda := rest }) hrun hm

end Sys2Proof.Machine
end

section
/-! PROOFS. The waits: what one step at a wait line does, how long an unanswered wait polls with and without a bound,
and what leaves a wait (R65, R66, R72, R75, R103, R121). -/

namespace Sys2Proof.Machine

/-! ### The wait sites -/

/-- Settles O13: the tables of lines, the numbers and the conditions are those of R66, and a wait stands at the label of
its site. -/
theorem waitSiteTable : Obligations.WaitSiteTable := by
  unfold Obligations.WaitSiteTable
  refine ⟨⟨_, rfl⟩, ⟨_, rfl⟩, ⟨_, rfl⟩, ⟨_, rfl⟩, ⟨_, rfl⟩, ⟨_, rfl⟩, ⟨_, rfl⟩, ⟨_, rfl⟩, ⟨_, rfl⟩, ⟨_, rfl⟩, ⟨_, rfl⟩,
    ⟨_, rfl⟩, ⟨_, rfl⟩, ⟨_, rfl⟩, ⟨_, rfl⟩, fun m u l w h => (lineOf_wait_site h).1, rfl, fun s => ?_⟩
  refine ⟨rfl, fun h => ?_, rfl, rfl, rfl, rfl, ?_, ?_, ?_⟩
  · simp only [Site.awaited, masterEntered, h]
  all_goals
    intro w hw
    fin_cases hw <;> exact ⟨rfl, rfl⟩

/-! ### One step at a wait -/

section Wait

variable {m : Mnemonic} {w : Site} {l : Label} {s : State}

/-- A poll leaves the bound, the count of failed polls and the operands of the command. -/
theorem pollOnce_keeps (w : Site) (s : State) :
    (pollOnce w s).cfg = s.cfg ∧ (pollOnce w s).k = s.k ∧ (pollOnce w s).op = s.op ∧ (pollOnce w s).n = s.n := by
  rw [pollOnce_frame]
  exact ⟨rfl, rfl, rfl, rfl⟩

/-- Without a bound a failed poll is all that happens (R65). -/
theorem waitUntil_unbounded (ha : w.awaited s = false) (hb : s.cfg.pollBound = none) :
    waitUntil w l s = pollOnce w s := by
  obtain ⟨hcfg, _⟩ := pollOnce_keeps w s
  simp only [waitUntil, ha, pollFailed, hcfg, hb, Bool.false_eq_true, if_false]

/-- Below the bound a failed poll is counted (R65). -/
theorem waitUntil_below_bound {B : Nat} (ha : w.awaited s = false) (hb : s.cfg.pollBound = some B) (hk : s.k + 1 < B) :
    waitUntil w l s = (pollOnce w s).setK (s.k + 1) := by
  obtain ⟨hcfg, hcount, _⟩ := pollOnce_keeps w s
  simp only [waitUntil, ha, pollFailed, hcfg, hb, hcount, Bool.false_eq_true, if_false, if_neg (Nat.not_le.mpr hk)]

/-- At the bound the failed poll is counted and the timeout begins (R65, R106). -/
theorem waitUntil_at_bound {B : Nat} (hop : s.op = m.op) (ha : w.awaited s = false) (hb : s.cfg.pollBound = some B)
    (hk : B ≤ s.k + 1) : waitUntil w l s
      = (((pollOnce w s).setK (s.k + 1)).setRaising (some w)).goto (timeoutLabel m s.n) := by
  obtain ⟨hcfg, hcount, hop', hn⟩ := pollOnce_keeps w s
  simp only [waitUntil, ha, pollFailed, hcfg, hb, hcount, Bool.false_eq_true, if_false, if_pos hk]
  rw [raiseTimeout_of_op (s := (pollOnce w s).setK (s.k + 1)) w (hop'.trans hop), State.setK_n, hn]

/-- As long as no bound is reached a failed poll is counted at most, and counted where there is a bound (R65). -/
theorem waitUntil_polls_on (ha : w.awaited s = false) (hb : ∀ B, s.cfg.pollBound = some B → s.k + 1 < B) :
    ∃ k, waitUntil w l s = (pollOnce w s).setK k ∧ ∀ B, s.cfg.pollBound = some B → k = s.k + 1 := by
  cases hB : s.cfg.pollBound with
  | none =>
    have hself : (pollOnce w s).setK s.k = pollOnce w s := by
      rw [pollOnce_frame]
      rfl
    exact ⟨s.k, (waitUntil_unbounded ha hB).trans hself.symm, nofun⟩
  | some B => exact ⟨s.k + 1, waitUntil_below_bound ha hB (hb B hB), fun _ _ => rfl⟩

/-- Settles O12: a wait line that may be performed is `waitUntil`, which polls once. -/
theorem waitLineStep : Obligations.WaitLineStep := by
  unfold Obligations.WaitLineStep
  intro i s w l hat hln
  refine ⟨fun hd hh => exec_stops hat hln hd hh, fun hok => ?_, pollOnce_trace w s⟩
  rw [exec_performs hat hln hok, perform]
  refine ⟨fun ha => ?_, fun ha hb => ?_, fun B ha hb hk => ?_, fun B ha hb hk => ?_⟩
  · rw [waitUntil, if_pos ha]
    rfl
  · rw [waitUntil_unbounded ha hb]
  · rw [waitUntil_below_bound ha hb hk]
    rfl
  · obtain ⟨_, hop, _⟩ := hat
    rw [waitUntil_at_bound hop ha hb hk]
    rfl

/-- The machine with an empty agenda performs the wait the command in flight stands at. -/
theorem step_wait (hat : s.standsAt m s.upc) (hln : lineOf m s.upc = some (.wait w l)) (hg : s.agenda = [])
    (hok : w.dataPhase = true → addrHeld s = false) : step s = .next (waitUntil w l s) := by
  obtain ⟨hrun, hop, _⟩ := hat
  rw [step_of_no_agenda hg, sequencerStep_run hrun hop, hln]
  refine runLine_eq_next.mpr ⟨?_, rfl⟩
  cases hd : w.dataPhase
  · exact .inl hd
  · exact .inr (hok hd)

end Wait

/-! ### An unanswered wait -/

/-- From `s` to `t` the site `w` was polled `n` times in vain, and nothing else happened: the registers a poll reads are
as they were, and the polls are counted where there is a bound (R65). -/
structure Polled (w : Site) (n : Nat) (s t : State) : Prop where
  frame : t = { s with
    k := t.k, stat1 := t.stat1, addrSent := t.addrSent, s1Latch := t.s1Latch, trace := t.trace }
  awaited : w.awaited t = w.awaited s
  event : w.pollEvent t = w.pollEvent s
  addr : w.dataPhase = true → addrHeld t = addrHeld s
  count : ∀ B, s.cfg.pollBound = some B → t.k = s.k + n
  trace : t.trace = s.trace ++ List.replicate n (w.pollEvent s)

/-- Polls leave the parameters, the operands, the mask, the pending timeout and the agenda. -/
theorem Polled.keeps {w : Site} {n : Nat} {s t : State} (h : Polled w n s t) : t.cfg = s.cfg ∧ t.n = s.n
    ∧ t.im = s.im ∧ t.raising = s.raising ∧ t.agenda = s.agenda := by
  rw [h.frame]
  exact ⟨rfl, rfl, rfl, rfl, rfl⟩

/-- A poll leaves the register it reads: one of STAT2 may clear ADDR, which is a bit of STAT1 (R42, R66). -/
theorem pollOnce_register (w : Site) (s : State) : w.awaited (pollOnce w s) = w.awaited s
    ∧ w.pollEvent (pollOnce w s) = w.pollEvent s ∧ (w.dataPhase = true → addrHeld (pollOnce w s) = addrHeld s) := by
  cases w
  case w1 =>
    change Site.w1.awaited (readStat2 s) = _ ∧ Site.w1.pollEvent (readStat2 s) = _ ∧ _
    rw [readStat2, stat2Effect_frame]
    exact ⟨rfl, rfl, nofun⟩
  all_goals exact ⟨rfl, rfl, fun _ => rfl⟩

/-- One poll more. -/
theorem Polled.poll {w : Site} {n k : Nat} {s t : State} (h : Polled w n s t)
    (hk : ∀ B, t.cfg.pollBound = some B → k = t.k + 1) : Polled w (n + 1) s ((pollOnce w t).setK k) := by
  obtain ⟨hawaited, hevent, haddr⟩ := pollOnce_register w t
  obtain ⟨hcfg, _⟩ := h.keeps
  refine ⟨?_, hawaited.trans h.awaited, hevent.trans h.event, fun hd => (haddr hd).trans (h.addr hd), ?_, ?_⟩
  · rw [pollOnce_frame, h.frame]
    rfl
  · intro B hB
    rw [State.setK_k, hk B (hcfg ▸ hB), h.count B hB, Nat.add_assoc]
  · rw [State.setK_trace, pollOnce_trace, h.event, h.trace, List.replicate_succ', List.append_assoc]

section Unanswered

variable {m : Mnemonic} {w : Site} {l : Label} {s t : State} {n : Nat}

/-- The command still stands at its wait. -/
theorem Polled.standsAt (h : Polled w n s t) (hat : s.standsAt m s.upc) : t.standsAt m s.upc := by
  obtain ⟨hrun, hop, _⟩ := hat
  rw [h.frame]
  exact ⟨hrun, hop, rfl⟩

/-- The next step of an unanswered wait performs the wait again. -/
theorem Polled.step {u : State} (h : Polled w n s t) (hat : s.standsAt m s.upc)
    (hln : lineOf m s.upc = some (.wait w l)) (hg : s.agenda = []) (hok : w.dataPhase = true → addrHeld s = false)
    (hwait : waitUntil w l t = u) : step t = .next u := by
  obtain ⟨hrun, hop, hu⟩ := h.standsAt hat
  obtain ⟨_, _, _, _, hagenda⟩ := h.keeps
  rw [step_wait ⟨hrun, hop, rfl⟩ (hu ▸ hln) (hagenda.trans hg) fun hd => (h.addr hd).trans (hok hd), hwait]

/-- An unanswered wait goes on polling as long as no bound is reached (R65, R72). -/
theorem run_unanswered (hat : s.standsAt m s.upc) (hln : lineOf m s.upc = some (.wait w l)) (hg : s.agenda = [])
    (ha : w.awaited s = false) (hok : w.dataPhase = true → addrHeld s = false) (n : Nat)
    (hn : ∀ B, s.cfg.pollBound = some B → s.k + n < B) :
    ∃ t, Sys2Proof.core.run n s = .next t ∧ Polled w n s t := by
  induction n with
  | zero => exact ⟨s, rfl, rfl, rfl, rfl, fun _ => rfl, fun _ _ => rfl, (List.append_nil _).symm⟩
  | succ n ih =>
    obtain ⟨t, hrun, hp⟩ := ih fun B hB => Nat.lt_of_succ_lt (hn B hB)
    obtain ⟨hcfg, _⟩ := hp.keeps
    obtain ⟨k, hwait, hk⟩ := waitUntil_polls_on (l := l) (hp.awaited.trans ha) fun B hB => by
      rw [hp.count B (hcfg ▸ hB)]
      exact hn B (hcfg ▸ hB)
    rw [run_add hrun]
    exact ⟨_, run_of_step (hp.step hat hln hg hok hwait), hp.poll hk⟩

end Unanswered

/-- Settles O14: without a bound the wait goes on polling, and a wait stands outside every masked window. -/
theorem unansweredWaitHangs : Obligations.UnansweredWaitHangs := by
  unfold Obligations.UnansweredWaitHangs
  intro s m w l hat hln hg hmask hb ha hok n
  obtain ⟨t, hrun, hp⟩ := run_unanswered hat hln hg ha hok n (by rw [hb]; nofun)
  obtain ⟨_, _, him, _⟩ := hp.keeps
  obtain ⟨_, _, hopen⟩ := lineOf_wait_site hln
  exact ⟨t, hrun, hp.standsAt hat, him.trans (hmask.trans hopen), hp.trace⟩

/-- Settles O15: before the bound the wait goes on polling, and the poll that reaches the bound begins the timeout. -/
theorem boundedWaitTimesOut : Obligations.BoundedWaitTimesOut := by
  unfold Obligations.BoundedWaitTimesOut
  intro s m w l B hat hln hg hb hpos hk ha hok
  have hbelow : ∀ j, j < B → ∃ t, Sys2Proof.core.run j s = .next t ∧ Polled w j s t ∧ t.k = j := by
    intro j hj
    obtain ⟨t, hrun, hp⟩ := run_unanswered hat hln hg ha hok j fun B' hB' => by
      cases hb.symm.trans hB'
      omega
    exact ⟨t, hrun, hp, by rw [hp.count B hb, hk, Nat.zero_add]⟩
  refine ⟨fun j hj => ?_, ?_⟩
  · obtain ⟨t, hrun, hp, hj⟩ := hbelow j hj
    obtain ⟨_, _, _, hraising, _⟩ := hp.keeps
    exact ⟨t, hrun, hp.standsAt hat, hj, hraising, hp.trace⟩
  · obtain ⟨j, rfl⟩ := Nat.exists_eq_add_of_le' hpos
    obtain ⟨t, hrun, hp, hj⟩ := hbelow j (Nat.lt_succ_self j)
    obtain ⟨hcfg, hn, _⟩ := hp.keeps
    obtain ⟨_, hop, _⟩ := hp.standsAt hat
    have hwait := waitUntil_at_bound (l := l) hop (hp.awaited.trans ha) (hcfg ▸ hb) (by rw [hj])
    have hlast := hp.poll (k := t.k + 1) fun _ _ => rfl
    obtain ⟨hrun', hop', _⟩ := hlast.standsAt hat
    rw [run_add hrun]
    exact ⟨_, run_of_step (hp.step hat hln hg hok hwait), ⟨hrun', hop', congrArg (timeoutLabel m) hn⟩,
      congrArg (· + 1) hj, rfl, hlast.trace⟩

/-! ### Leaving a wait -/

/-- While a command runs no other agent moves its label, but the reset input (R13, R119, R126). -/
theorem agentMove_upc {x : Move} {s t : State} (hrun : s.fsm = .run) (hx : x ≠ .reset) (h : agentMove x s = .next t) :
    t.upc = s.upc := by
  refine (agentMove_keeps_modes hx ?_ h).1
  rintro f b rfl
  simp [agentMove, foreignAccess, hrun] at h

/-- Settles O16: of the sequencer's steps at a wait only a successful poll and a timeout move the label, of the other
agents' moves only the reset. -/
theorem waitLeftOnlyBySuccess : Obligations.WaitLeftOnlyBySuccess := by
  unfold Obligations.WaitLeftOnlyBySuccess
  rintro s t m w l ⟨hrun, hop, _⟩ hln h hne
  obtain ⟨rest, hseq | ⟨x, hhead, hx⟩⟩ := step_cases h
  · cases hseq with
    | accepts _ _ hidle | rejects _ _ hidle | waits hidle => cases hrun.symm.trans hidle
    | performs m' ln _ hop' hln' _ hp =>
      obtain rfl := Mnemonic.op_injective (hop.symm.trans hop')
      cases hln.symm.trans hln'
      cases hp
      rcases waitUntil_cases w l { s with agenda := rest } with ⟨ha, ht⟩ | ⟨_, _, ht⟩ | ⟨_, _, ht⟩ | ⟨ha, hb, ht⟩
      · exact .inl ⟨ha, by rw [ht]; rfl⟩
      · exact absurd (by rw [ht, pollOnce_frame]) hne
      · exact absurd (by rw [ht, pollOnce_frame]; rfl) hne
      · exact .inr (.inl ⟨ha, by rw [ht]; rfl, hb⟩)
  · by_cases hreset : x = .reset
    · exact .inr (.inr (by rw [hhead, hreset]; rfl))
    · exact absurd (agentMove_upc (s := { s with agenda := rest }) hrun hreset hx) hne

end Sys2Proof.Machine
end

section
/-! PROOFS. A run under a poll bound that no wait reaches is the run without the bound: every operation of the machine
commutes with dropping the bound, a failed poll and its count apart (R65, R103). -/

namespace Sys2Proof.Machine

/-- The state without a poll bound, with another count of failed polls. -/
def State.withoutBound (k : Nat) (s : State) : State := { s with k := k, cfg := { s.cfg with pollBound := none } }

/-- A state equal to `t` but for the count and the bound, and without a bound, is `t` without its bound. -/
theorem eq_withoutBound_of_same {s t : State} (h : sameButBound s t) (hb : s.cfg.pollBound = none) :
    s = t.withoutBound s.k := by
  have hself : s = (s.withoutBound 0).setK s.k := by
    change s = { s with cfg := { s.cfg with pollBound := none } }
    rw [← hb]
  have hsame : s.withoutBound 0 = t.withoutBound 0 := h
  rw [hsame] at hself
  exact hself

section Unbounded

variable (k : Nat) {s t : State}

/-! ### Lines -/

/-- A read of STAT2 asks for no bound. -/
theorem stat2Effect_withoutBound (s : State) :
    stat2Effect (s.withoutBound k) = (stat2Effect s).withoutBound k := by
  unfold stat2Effect
  change (if s.s1Latch && addrHeld s then _ else _) = _
  split <;> rfl

/-- A read of DATA asks for no bound. -/
theorem dataReadEffect_withoutBound (s : State) :
    dataReadEffect (s.withoutBound k) = (dataReadEffect s).withoutBound k := by
  cases h : s.rx
  all_goals
    simp only [dataReadEffect, show (s.withoutBound k).rx = _ from h, h]
    rfl

/-- A poll asks for no bound. -/
theorem pollOnce_withoutBound (w : Site) (s : State) :
    pollOnce w (s.withoutBound k) = (pollOnce w s).withoutBound k := by
  unfold pollOnce
  cases w.poll with
  | stat1 => cases w <;> rfl
  | stat2 => simp only [readStat2, stat2Effect_withoutBound]; rfl
  | stopField => rfl

/-- A wait that does not time out is left, or stays, without the bound as well. -/
theorem waitUntil_withoutBound (w : Site) (l : Label) (s : State) (hr : (waitUntil w l s).raising = none) :
    ∃ k', waitUntil w l (s.withoutBound k) = (waitUntil w l s).withoutBound k' := by
  have hw : w.awaited (s.withoutBound k) = w.awaited s := by cases w <;> rfl
  rcases waitUntil_cases w l s with ⟨ha, h⟩ | ⟨ha, _, h⟩ | ⟨ha, _, h⟩ | ⟨_, _, h⟩
  · exact ⟨0, by rw [h, waitUntil, if_pos (hw.trans ha), pollOnce_withoutBound]; rfl⟩
  · exact ⟨k, by rw [h, waitUntil_unbounded (hw.trans ha) rfl, pollOnce_withoutBound]⟩
  · exact ⟨k, by rw [h, waitUntil_unbounded (hw.trans ha) rfl, pollOnce_withoutBound]; rfl⟩
  · rw [h] at hr
    cases hr

/-- A line that begins no timeout does the same without the bound. -/
theorem perform_withoutBound {ln : Line} (hp : perform ln s = .next t) (hr : t.raising = none) :
    ∃ k', perform ln (s.withoutBound k) = .next (t.withoutBound k') := by
  cases ln <;> simp only [perform, Host.Outcome.next.injEq, returnOk, pushByte_eq_next,
    sendPayloadByte_eq_next, endTimeout_eq_next] at hp ⊢
  case push => obtain ⟨hroom, rfl⟩ := hp; exact ⟨k, hroom, rfl⟩
  case sendPayload => obtain ⟨v, hv, rfl⟩ := hp; exact ⟨k, v, hv, rfl⟩
  case endTimeout => obtain ⟨w, hw, rfl⟩ := hp; exact ⟨0, w, hw, rfl⟩
  case wait w l => subst hp; exact waitUntil_withoutBound k w l s hr
  case stat2 => subst hp; exact ⟨k, by rw [readStat2, stat2Effect_withoutBound]; rfl⟩
  case recv => subst hp; exact ⟨k, by rw [dataRead, dataReadEffect_withoutBound]; rfl⟩
  case requireCount =>
    subst hp
    change ∃ _, (if s.n = 0 then _ else _) = _
    split
    exacts [⟨0, rfl⟩, ⟨k, rfl⟩]
  case requireCapacity =>
    subst hp
    change ∃ _, (if s.cfg.sinkCap < s.n.toNat then _ else _) = _
    split
    exacts [⟨0, rfl⟩, ⟨k, rfl⟩]
  case ctlSet f l => subst hp; cases f <;> exact ⟨k, rfl⟩
  case ctlClr f l => subst hp; cases f <;> exact ⟨k, rfl⟩
  all_goals (subst hp; exact ⟨k, rfl⟩)

/-! ### Steps -/

/-- The sequencer does the same without the bound, when no timeout begins. -/
theorem sequencerStep_withoutBound (h : sequencerStep s = .next t) (hr : t.raising = none) :
    ∃ k', sequencerStep (s.withoutBound k) = .next (t.withoutBound k') := by
  rcases hf : s.fsm with _ | _
  · rw [sequencerStep_of_idle (s := s.withoutBound k) hf, fetch]
    rcases sequencerStep_idle hf h with ⟨i, rest, hd, he⟩ | ⟨w, _, rest, hd, ht⟩ | ⟨_, hd, ht⟩ <;>
      rw [show decode (s.withoutBound k).cmd = _ from hd]
    · rw [exec_eq_command, command_idle (s := { s with cmd := rest }) hf] at he
      cases he
      exact ⟨0, (exec_eq_command i _).trans (command_idle hf)⟩
    · exact ⟨0, ht ▸ rfl⟩
    · exact ⟨k, ht ▸ rfl⟩
  · cases sequencerStep_cases h with
    | accepts _ _ hidle | rejects _ _ hidle | waits hidle => cases hf.symm.trans hidle
    | performs m ln _ hop hln hok hp =>
      obtain ⟨k', hp'⟩ := perform_withoutBound k hp hr
      have hd : ln.dataPhase (s.withoutBound k) = ln.dataPhase s := by cases ln <;> rfl
      rw [sequencerStep_run (s := s.withoutBound k) hf hop, show lineOf m (s.withoutBound k).upc = _ from hln]
      exact ⟨k', runLine_eq_next.mpr ⟨hd ▸ hok, hp'⟩⟩

/-- The other agents ask for no bound. -/
theorem agentMove_withoutBound {x : Move} (h : agentMove x s = .next t) :
    ∃ k', agentMove x (s.withoutBound k) = .next (t.withoutBound k') := by
  cases x <;> simp only [agentMove, Host.Outcome.next.injEq] at h ⊢
  case reset => subst h; exact ⟨0, rfl⟩
  case irqRequest n =>
    subst h
    unfold requestIrq
    change ∃ _, (if n ∈ s.pending then _ else _) = _
    split <;> exact ⟨k, rfl⟩
  case irqHandler n =>
    subst h
    unfold runHandler
    change ∃ _, (if n ∈ s.pending then _ else _) = _
    split <;> exact ⟨k, rfl⟩
  case foreign x =>
    unfold foreignAccess at h ⊢
    split at h <;> cases h
    rename_i hf
    rw [show (s.withoutBound k).fsm = _ from hf]
    refine ⟨k, congrArg Host.Outcome.next ?_⟩
    cases x
    case stat2 => exact stat2Effect_withoutBound k s
    case dataRead => exact dataReadEffect_withoutBound k s
    case ctlWrite f b => cases f <;> rfl
    all_goals rfl
  all_goals (subst h; exact ⟨k, rfl⟩)

/-- A turn without the bound. -/
def Turn.withoutBound : Turn → Turn
  | .sequencer s => .sequencer (s.withoutBound k)
  | .agent x s => .agent x (s.withoutBound k)

/-- Whose turn it is does not depend on the bound. -/
theorem turn_withoutBound (s : State) : turn (s.withoutBound k) = (turn s).withoutBound k := by
  have hheld : ∀ x, heldOff x (s.withoutBound k) = heldOff x s := fun x => by cases x <;> rfl
  unfold turn
  rw [show (s.withoutBound k).agenda = s.agenda from rfl]
  split
  · rfl
  · rfl
  · rw [hheld]
    split <;> rfl

/-- A step that begins no timeout is the same step without the bound. -/
theorem step_withoutBound (h : step s = .next t) (hr : t.raising = none) :
    ∃ k', step (s.withoutBound k) = .next (t.withoutBound k') := by
  unfold step at h ⊢
  rw [turn_withoutBound]
  cases ht : turn s with
  | sequencer s' => rw [ht] at h; exact sequencerStep_withoutBound k h hr
  | agent x s' => rw [ht] at h; exact agentMove_withoutBound k h

end Unbounded

/-! ### Runs -/

/-- A run of one step or more has a first step. -/
theorem step_of_run_succ {n : Nat} {s t : State} (h : Sys2Proof.core.run (n + 1) s = .next t) :
    ∃ u, step s = .next u ∧ Sys2Proof.core.run n u = .next t := by
  cases hs : step s with
  | next u => exact ⟨u, rfl, (run_of_step hs).symm.trans h⟩
  | fault r => simp [Host.Core.run, show Sys2Proof.core.step s = _ from hs] at h
  | refused r => simp [Host.Core.run, show Sys2Proof.core.step s = _ from hs] at h

/-- A run in which no timeout begins is the same run without the bound. -/
theorem run_withoutBound {n k : Nat} {t t' : State} (h : Sys2Proof.core.run n t = .next t')
    (hr : ∀ (j : Nat) (u : State), j ≤ n → Sys2Proof.core.run j t = .next u → u.raising = none) :
    ∃ k', Sys2Proof.core.run n (t.withoutBound k) = .next (t'.withoutBound k') := by
  induction n generalizing t k with
  | zero =>
    have htt : t = t' := Host.Outcome.next.inj h
    exact ⟨k, htt ▸ rfl⟩
  | succ n ih =>
    obtain ⟨u, hstep, hrun⟩ := step_of_run_succ h
    obtain ⟨k', hstep'⟩ := step_withoutBound k hstep (hr 1 u (Nat.le_add_left 1 n) (run_of_step hstep))
    rw [run_of_step hstep']
    exact ih hrun fun j v hj hv => hr (j + 1) v (Nat.succ_le_succ hj) ((run_of_step hstep).trans hv)

/-- Settles O17: the run without the bound is the other with its bound dropped. -/
theorem boundDoesNotChangeSuccess : Obligations.BoundDoesNotChangeSuccess := by
  unfold Obligations.BoundDoesNotChangeSuccess
  intro n s t t' hsame hb h hr
  obtain ⟨k', hrun⟩ := run_withoutBound (k := s.k) h hr
  rw [eq_withoutBound_of_same hsame hb]
  exact ⟨_, hrun, rfl, rfl⟩

end Sys2Proof.Machine
end

section
/-! PROOFS. What the lines of each command can change, and that they change nothing else: the frames of READ, of WRITE
and of the five primitives (R67 to R71, R74, R80, R95, R97). -/

namespace Sys2Proof.Machine

/-! ### What each kind of line can change -/

/-- A line changes no more than this (R8, R13). -/
def Line.frame (ln : Line) (s t : State) : Prop :=
  match ln with
  | .ctlSet f _ => t = { s.setCtl f true with
      startDue := t.startDue, s1Latch := t.s1Latch, upc := t.upc, trace := t.trace }
  | .ctlClr f _ => t = { s.setCtl f false with
      startDue := t.startDue, s1Latch := t.s1Latch, upc := t.upc, trace := t.trace }
  | .irqMask _ | .irqUnmask _ => t = { s with im := t.im, upc := t.upc, trace := t.trace }
  | .stat1 _ => t = { s with s1Latch := t.s1Latch, upc := t.upc, trace := t.trace }
  | .stat2 _ => t = { s with
      stat1 := t.stat1, addrSent := t.addrSent, s1Latch := t.s1Latch, upc := t.upc, trace := t.trace }
  | .sendAddrByte _ | .sendData _ | .sendPayload _ => t = { s with
      tx := t.tx, startDue := t.startDue, addrSent := t.addrSent, s1Latch := t.s1Latch, upc := t.upc, trace := t.trace }
  | .recv _ => t = { s with
      rx := t.rx, draws := t.draws, rxb := t.rxb, s1Latch := t.s1Latch, upc := t.upc, trace := t.trace }
  | .push _ => t = { s with sink := t.sink, rem := t.rem, upc := t.upc, trace := t.trace }
  | .wait _ _ => t = { s with
      k := t.k, raising := t.raising, stat1 := t.stat1, addrSent := t.addrSent, s1Latch := t.s1Latch, upc := t.upc,
      trace := t.trace }
  | .requireCount _ | .requireCapacity _ | .endTimeout => t = { s with
      k := t.k, raising := t.raising, status := t.status, site := t.site, fsm := t.fsm, upc := t.upc, trace := t.trace }
  | .beginRead _ => t = { s with rem := t.rem, d := t.d, upc := t.upc }
  | .beginWrite _ => t = { s with idx := t.idx, d := t.d, upc := t.upc }
  | .nextIdx _ => t = { s with idx := t.idx, upc := t.upc }
  | .selectVariant | .testRem _ _ | .testIdx _ _ => t = { s with upc := t.upc }
  | .ret => t = { s with status := t.status, site := t.site, fsm := t.fsm, upc := t.upc, trace := t.trace }

section Performed

variable {m : Mnemonic} {u l : Label} {w : Site} {ln : Line} {s t : State}

/-- A line changes no more than its frame says. -/
theorem perform_frame (h : perform ln s = .next t) : ln.frame s t := by
  cases ln <;> simp only [perform, Host.Outcome.next.injEq, returnOk, pushByte_eq_next,
    sendPayloadByte_eq_next, endTimeout_eq_next] at h
  case push => obtain ⟨_, rfl⟩ := h; rfl
  case sendPayload => obtain ⟨_, _, rfl⟩ := h; rfl
  case endTimeout => obtain ⟨_, _, rfl⟩ := h; rfl
  case wait w l => subst h; obtain ⟨_, _, _, _, _, _, _, h, _⟩ := waitUntil_frame w l s; rw [h]; rfl
  case stat2 => subst h; rw [readStat2, stat2Effect_frame]; rfl
  case recv => subst h; rw [dataRead, dataReadEffect_frame]; rfl
  case requireCount | requireCapacity => subst h; split <;> rfl
  case ctlSet f l => subst h; cases f <;> rfl
  case ctlClr f l => subst h; cases f <;> rfl
  all_goals (subst h; rfl)

/-- A command in flight goes on by performing its line (R13). -/
theorem exec_run_next {i : Instr} (hrun : s.fsm = .run) (h : exec i s = .next t) :
    ∃ ln, lineOf i.mnemonic s.upc = some ln ∧ perform ln s = .next t := by
  rcases exec_next h with ⟨hidle, _⟩ | ⟨_, _, ln, hln, _, hp⟩
  · cases hrun.symm.trans hidle
  · exact ⟨ln, hln, hp⟩

/-! ### Which command has which lines -/

/-- No command writes PE, and only READ sets a field other than START and STOP (R17, R74, R97). -/
theorem lineOf_ctlSet {f : CtlField} (h : lineOf m u = some (.ctlSet f l)) :
    f ≠ .pe ∧ (f = .start ∨ f = .stop ∨ m = .read) := by
  cases m <;> cases u <;> cases h <;> decide

/-- Only READ clears fields of CTRL, and only ACK and POS (R84, R85, R86, R106). -/
theorem lineOf_ctlClr {f : CtlField} (h : lineOf m u = some (.ctlClr f l)) : m = .read ∧ (f = .ack ∨ f = .pos) := by
  cases m <;> cases u <;> cases h <;> decide

/-- The lines of the masked windows, the reads of DATA, the pushes and the entry of READ. -/
def Line.onlyRead : Line → Bool
  | .irqMask _ | .irqUnmask _ | .recv _ | .push _ | .beginRead _ => true
  | _ => false

/-- Only READ has them (R74, R95, R97). -/
theorem lineOf_onlyRead (h : lineOf m u = some ln) (hr : ln.onlyRead = true) : m = .read := by
  cases m <;> cases u <;> cases h <;> cases hr <;> rfl

/-- The lines that move `x[idx]`. -/
def Line.movesIdx : Line → Bool
  | .beginWrite _ | .nextIdx _ => true
  | _ => false

/-- Only WRITE has them (R95). -/
theorem lineOf_movesIdx (h : lineOf m u = some ln) (hi : ln.movesIdx = true) : m = .write := by
  cases m <;> cases u <;> cases h <;> cases hi <;> rfl

/-- READ writes POS at three lines (R85, R106). -/
theorem lineOf_read_posAfter (h : lineOf .read u = some ln) (hu : u ∉ [Label.r85_1, .r85_16, .r106_1]) (b : Bool) :
    ln.posAfter b = b := by
  revert hu b
  cases u <;> cases h <;> decide

/-- No line clears a start or a stop that is requested: that is the controller's to do (R17, R41). -/
theorem perform_keeps_requests (hln : lineOf m s.upc = some ln) (hp : perform ln s = .next t) :
    (s.start = true → t.start = true) ∧ (s.stop = true → t.stop = true) := by
  have hf := perform_frame hp
  cases ln <;> simp only [Line.frame] at hf <;> rw [hf]
  case ctlSet f l => cases f <;> simp
  case ctlClr f l => obtain ⟨_, rfl | rfl⟩ := lineOf_ctlClr hln <;> simp
  all_goals exact ⟨id, id⟩

/-! ### READ and WRITE -/

/-- A line of READ changes no more than R80 lists and its accesses touch. -/
theorem perform_read_frame (hln : lineOf .read u = some ln) (hp : perform ln s = .next t) : t = { s with
    fsm := t.fsm, upc := t.upc, im := t.im, status := t.status, site := t.site, d := t.d, rem := t.rem,
    rxb := t.rxb, k := t.k, raising := t.raising, ack := t.ack, start := t.start, stop := t.stop,
    pos := t.pos, stat1 := t.stat1, startDue := t.startDue, addrSent := t.addrSent,
    s1Latch := t.s1Latch, rx := t.rx, tx := t.tx,
    draws := t.draws, sink := t.sink, trace := t.trace } := by
  have hf := perform_frame hp
  cases ln <;> simp only [Line.frame] at hf
  case beginWrite | nextIdx => cases lineOf_movesIdx hln rfl
  case ctlSet f l =>
    obtain ⟨hpe, _⟩ := lineOf_ctlSet hln
    rw [hf]
    cases f
    case pe => exact absurd rfl hpe
    all_goals rfl
  case ctlClr f l => obtain ⟨_, rfl | rfl⟩ := lineOf_ctlClr hln <;> rw [hf] <;> rfl
  all_goals rw [hf]

/-- A line of any other command changes no more than R95 lists for WRITE and its accesses touch. -/
theorem perform_frame_of_not_read (hm : m ≠ .read) (hln : lineOf m u = some ln) (hp : perform ln s = .next t) :
    t = { s with
      fsm := t.fsm, upc := t.upc, status := t.status, site := t.site, d := t.d, idx := t.idx, k := t.k,
      raising := t.raising, start := t.start, stop := t.stop, stat1 := t.stat1,
      startDue := t.startDue, addrSent := t.addrSent, s1Latch := t.s1Latch, tx := t.tx, trace := t.trace } := by
  have hf := perform_frame hp
  cases ln <;> simp only [Line.frame] at hf
  case irqMask | irqUnmask | recv | push | beginRead => exact absurd (lineOf_onlyRead hln rfl) hm
  case ctlSet f l =>
    obtain ⟨_, rfl | rfl | hread⟩ := lineOf_ctlSet hln
    · rw [hf]
      rfl
    · rw [hf]
      rfl
    · exact absurd hread hm
  case ctlClr f l => exact absurd (lineOf_ctlClr hln).1 hm
  all_goals rw [hf]

end Performed

/-- Settles O37: the frame of a line of READ, which clears no request and writes POS at three lines. -/
theorem readFrame : Obligations.ReadFrame := by
  unfold Obligations.ReadFrame
  intro a n s t hrun h
  obtain ⟨ln, hln, hp⟩ := exec_run_next hrun h
  obtain ⟨hstart, hstop⟩ := perform_keeps_requests hln hp
  refine ⟨perform_read_frame hln hp, hstart, hstop, fun hu => ?_⟩
  rw [(perform_ack_pos hp).2, lineOf_read_posAfter hln hu]

/-- Settles O40: the frame of a line that is not READ's, which clears no request. -/
theorem writeFrame : Obligations.WriteFrame := by
  unfold Obligations.WriteFrame
  intro a n p s t hrun h
  obtain ⟨ln, hln, hp⟩ := exec_run_next hrun h
  exact ⟨perform_frame_of_not_read (m := .write) nofun hln hp, perform_keeps_requests hln hp⟩

/-! ### The primitives -/

/-- Settles O25: acceptance writes none of these, and neither does a line that is not READ's. -/
theorem primitivesLeaveUntouched : Obligations.PrimitivesLeaveUntouched := by
  unfold Obligations.PrimitivesLeaveUntouched
  intro i s t hprim h
  rcases exec_next h with ⟨_, rfl⟩ | ⟨_, _, ln, hln, _, hp⟩
  · exact ⟨rfl, rfl, rfl, rfl, rfl, rfl, rfl, rfl⟩
  · have hread : i.mnemonic ≠ .read := by
      intro hm
      rw [hm] at hprim
      revert hprim
      decide
    rw [perform_frame_of_not_read hread hln hp]
    exact ⟨rfl, rfl, rfl, rfl, rfl, rfl, rfl, rfl⟩

/-- A wait that completes no pair of reads changes nothing of ADDR (R42, R67 b). -/
theorem perform_wait_frame {w : Site} {l : Label} {s t : State} (hl : w.poll = .stat2 → s.s1Latch = false)
    (hp : perform (.wait w l) s = .next t) : t = { s with
      k := t.k, raising := t.raising, s1Latch := t.s1Latch, upc := t.upc, trace := t.trace } := by
  obtain ⟨_, haddr, _⟩ := perform_addr hp
  have hkept : t.stat1 = s.stat1 ∧ t.addrSent = s.addrSent := by
    cases hw : w.poll <;> simp only [hw] at haddr
    case stat1 => exact haddr
    case stat2 => exact ⟨(haddr (hl hw)).1, (haddr (hl hw)).2.1⟩
    case stopField => exact ⟨haddr.1, haddr.2.1⟩
  obtain ⟨hstat1, hsent⟩ := hkept
  have hf : t = { s with
      k := t.k, raising := t.raising, stat1 := t.stat1, addrSent := t.addrSent, s1Latch := t.s1Latch, upc := t.upc,
      trace := t.trace } := perform_frame hp
  rwa [hstat1, hsent] at hf

/-- Settles O41: each primitive has a handful of lines, and each of them has its frame; the poll of STAT2 by GEN_START
completes no pair. -/
theorem primitiveFrames : Obligations.PrimitiveFrames := by
  unfold Obligations.PrimitiveFrames
  intro s t hrun
  refine ⟨fun hl h => ?_, fun a d h => ?_, fun h => ?_, fun v h => ?_, fun h => ?_⟩
  all_goals
    obtain ⟨ln, hln, hp⟩ := exec_run_next hrun h
    have hf := perform_frame hp
  · generalize s.upc = u at hln hl
    cases u <;> cases hln
    case r67_2.refl => rw [perform_wait_frame (fun _ => hl rfl) hp]
    all_goals
      simp only [Line.frame, State.setCtl] at hf
      rw [hf]
  · generalize s.upc = u at hln
    cases u <;> cases hln
    case r68_1.refl | r68_3.refl => rw [perform_wait_frame (by nofun) hp]
    all_goals
      simp only [Line.frame] at hf
      rw [hf]
  · generalize s.upc = u at hln
    cases u <;> cases hln
    all_goals
      simp only [Line.frame] at hf
      rw [hf]
  · generalize s.upc = u at hln
    cases u <;> cases hln
    case r70_2.refl => rw [perform_wait_frame (by nofun) hp]
    all_goals
      simp only [Line.frame] at hf
      rw [hf]
  · generalize s.upc = u at hln
    cases u <;> cases hln
    case r71_1.refl =>
      rw [perform_ctlSet rfl] at hp
      cases hp
      rfl
    case r71_2.refl => rw [perform_wait_frame (by nofun) hp]
    all_goals
      simp only [Line.frame] at hf
      rw [hf]

end Sys2Proof.Machine
end

section
/-! PROOFS. The runs of GEN_START and WRITE_BYTE that complete, under a controller that answers their one poll at once
(R67, R70). -/

namespace Sys2Proof.Machine

/-- Settles O20: the request drops the latch, so the poll of STAT2 completes no pair and clears nothing (R67 b). -/
theorem genStartCompletes : Obligations.GenStartCompletes := by
  unfold Obligations.GenStartCompletes
  intro s rest ha hidle hu hcmd hentered
  refine Turns.run_no_agenda ?_ ha
  refine .accept (i := .genStart) hidle rfl hcmd ?_
  refine .line .genStart rfl rfl rfl rfl (.inl rfl) perform_ctlSet_start ?_
  refine .line .genStart rfl rfl rfl rfl (.inl rfl) (perform_wait hentered) ?_
  refine .line .genStart rfl rfl rfl rfl (.inl rfl) rfl ?_
  refine .nil_of_eq ?_
  simp only [append_cons_cons, hidle, hu]
  rfl

/-- Settles O23: with ADDR cleared neither the write nor the wait for BTF is a fault, and the poll of STAT1 arms the
clearing. -/
theorem writeByteCompletes : Obligations.WriteByteCompletes := by
  unfold Obligations.WriteByteCompletes
  intro s v rest ha hidle hu hcmd hh hbtf
  refine Turns.run_no_agenda ?_ ha
  refine .accept (i := .writeByte v) hidle rfl hcmd ?_
  refine .line .writeByte rfl rfl rfl rfl (.inr hh) rfl ?_
  refine .line .writeByte rfl rfl rfl rfl (.inr hh) (perform_wait hbtf) ?_
  refine .line .writeByte rfl rfl rfl rfl (.inl rfl) rfl ?_
  refine .nil_of_eq ?_
  simp only [append_cons_cons, hidle, hu]
  rfl

end Sys2Proof.Machine
end

section
/-! PROOFS. The lines of READ that are neither waits, reads of DATA, pushes nor returns, with the state each leaves; and
what a READ that ends with success leaves (R81 to R87, R90, R111, R130). -/

namespace Sys2Proof.Machine

/-! ### Checks, entry and tests -/

/-- Settles O28: the checks are the lines at these labels, and a failed one reports its DONE and nothing else. -/
theorem readChecks : Obligations.ReadChecks := by
  unfold Obligations.ReadChecks
  intro a n s
  refine ⟨fun hat hn => ?_, fun hat hn => ?_, fun hat hlt => ?_, fun hat hle => ?_⟩
  · rw [exec_performs (i := .read a n) hat rfl (.inl rfl), perform, if_pos hn]
    rfl
  · rw [exec_performs (i := .read a n) hat rfl (.inl rfl), perform, if_neg hn]
    rfl
  · rw [exec_performs (i := .read a n) hat rfl (.inl rfl), perform, if_pos hlt]
    rfl
  · rw [exec_performs (i := .read a n) hat rfl (.inl rfl), perform, if_neg (Nat.not_lt.mpr hle)]
    rfl

/-- R83.2 leads to the first line of the variant that `x[n]` selects. -/
theorem exec_selectVariant {a : Byte} {n : Count} {s : State} {v : ReadVariant} (hat : s.standsAt .read .r83_2)
    (hv : readVariant s.n = v) : exec (.read a n) s = .next { s with upc := variantEntry v } := by
  rw [exec_performs (i := .read a n) hat rfl (.inl rfl), perform, hv]
  rfl

/-- Settles O29: each clause is the line at its label, performed. -/
theorem readDispatch : Obligations.ReadDispatch := by
  unfold Obligations.ReadDispatch
  intro a n s
  refine ⟨fun hat => ?_, fun hat h1 => ?_, fun hat h2 => ?_, fun hat h1 h2 => ?_, fun hat hlt => ?_,
    fun hat hle => ?_⟩
  · rw [exec_performs (i := .read a n) hat rfl (.inl rfl)]
    rfl
  · exact exec_selectVariant hat (v := .singleByte) (by rw [h1]; rfl)
  · exact exec_selectVariant hat (v := .doubleByte) (by rw [h2]; rfl)
  · exact exec_selectVariant hat (v := .bulkRead) (by rw [readVariant, if_neg h1, if_neg h2])
  · rw [exec_performs (i := .read a n) hat rfl (.inl rfl), perform, if_pos hlt]
    rfl
  · rw [exec_performs (i := .read a n) hat rfl (.inl rfl), perform, if_neg (Nat.not_lt.mpr hle)]
    rfl

/-! ### Control writes, mask changes and the clearing of ADDR -/

/-- The write of `b` to the field `f` of CTRL, as a line (R8). -/
def Line.ofCtl (f : CtlField) (b : Bool) (l : Label) : Line := if b then .ctlSet f l else .ctlClr f l

/-- The change of IM to `b`, as a line (R8). -/
def Line.ofMask (b : Bool) (l : Label) : Line := if b then .irqMask l else .irqUnmask l

section Written

variable {f : CtlField} {b : Bool} {l : Label} {s : State}

/-- What a write of CTRL leaves (R32). -/
theorem perform_ofCtl : perform (.ofCtl f b l) s = .next { s.setCtl f b with
    startDue := s.startDue || (f == .start && b), s1Latch := false, upc := l, trace := s.trace ++ [.cw f b] } := by
  cases b <;> cases f <;> rfl

/-- A write of CTRL may be performed with ADDR held, a stop request apart (R130). -/
theorem ofCtl_ok (h : f = .stop → addrHeld s = false) :
    (Line.ofCtl f b l).dataPhase s = false ∨ addrHeld s = false := by
  by_cases hf : f = .stop
  · exact .inr (h hf)
  · left
    cases b
    · rfl
    · exact beq_false_of_ne hf

/-- What a change of IM leaves (R15). -/
theorem perform_ofMask : perform (.ofMask b l) s = .next { s with
    im := b, upc := l, trace := s.trace ++ [.im b] } := by
  cases b <;> rfl

/-- A change of IM is no data-phase action. -/
theorem ofMask_dataPhase : (Line.ofMask b l).dataPhase s = false := by
  cases b <;> rfl

end Written

/-- Settles O30: the tables of the statement are READ's own lines, and each clause is its line, performed. -/
theorem readRegisterLines : Obligations.ReadRegisterLines := by
  unfold Obligations.ReadRegisterLines
  intro a n s l
  refine ⟨fun f b hat hstop hmem => ?_, fun b hat hmem => ?_, fun hat hmem => ?_, fun hat hl hh hmem => ?_,
    fun hat hok => ?_⟩
  · have hln : lineOf .read s.upc = some (.ofCtl f b l) :=
      (by decide : ∀ p ∈ _, lineOf .read p.1 = some (.ofCtl p.2.2.1 p.2.2.2 p.2.1)) _ hmem
    rw [exec_performs (i := .read a n) hat hln (ofCtl_ok hstop), perform_ofCtl]
  · have hln : lineOf .read s.upc = some (.ofMask b l) :=
      (by decide : ∀ p ∈ _, lineOf .read p.1 = some (.ofMask p.2.2 p.2.1)) _ hmem
    rw [exec_performs (i := .read a n) hat hln (.inl ofMask_dataPhase), perform_ofMask]
  · have hln : lineOf .read s.upc = some (.stat1 l) :=
      (by decide : ∀ p ∈ _, lineOf .read p.1 = some (.stat1 p.2)) _ hmem
    rw [exec_performs (i := .read a n) hat hln (.inl rfl)]
    rfl
  · have hln : lineOf .read s.upc = some (.stat2 l) :=
      (by decide : ∀ p ∈ _, lineOf .read p.1 = some (.stat2 p.2)) _ hmem
    rw [exec_performs (i := .read a n) hat hln (.inl rfl), perform_stat2_of_pair hl hh]
    rfl
  · rw [exec_performs (i := .read a n) hat rfl (sendAddrByte_ok hok _)]
    rfl

/-! ### The end with success -/

/-- A command ends with status 0 at its return alone; the other ends report an error (R62, R101). -/
theorem perform_ends_ok {ln : Line} {s t : State} (hp : perform ln s = .next t) (hrun : s.fsm = .run)
    (hidle : t.fsm = .idle) (hok : t.status = 0) : ln = .ret := by
  rcases perform_reports hp with ⟨hend, _⟩ | ⟨hf, _⟩
  · cases ln <;> simp only [perform, Host.Outcome.next.injEq, endTimeout_eq_next] at hp
    case ret => rfl
    case endTimeout => obtain ⟨_, _, rfl⟩ := hp; cases hok
    case requireCount =>
      subst hp
      by_cases hn : s.n = 0
      · rw [if_pos hn] at hok; cases hok
      · rw [if_neg hn] at hidle; cases hrun.symm.trans hidle
    case requireCapacity =>
      subst hp
      by_cases hn : s.cfg.sinkCap < s.n.toNat
      · rw [if_pos hn] at hok; cases hok
      · rw [if_neg hn] at hidle; cases hrun.symm.trans hidle
    all_goals cases hend
  · cases (hf.trans hrun).symm.trans hidle

/-- READ returns behind its entry, with no byte held and none left to push (R82, R84 to R86). -/
theorem readLine_ret {u : Label} {cap n rem : Nat} (h : lineOf .read u = some .ret) (hc : readCounts u cap n rem) :
    u.beforeEntry = false ∧ u.holdsByte = false ∧ rem = 0 := by
  cases u <;> cases h
  all_goals
    obtain ⟨_, _, hrem⟩ := hc
    exact ⟨rfl, rfl, hrem⟩

/-- Settles O36: success is the return line; there the counts leave no byte to push, so what `traceInv` says of a READ
in flight is that all N bytes are pushed as they were read. -/
theorem readPostconditions : Obligations.ReadPostconditions := by
  unfold Obligations.ReadPostconditions
  intro a n s t hinv hack htr hrun hn h hidle hok
  obtain ⟨hack', hpos', him'⟩ := endRestoresModes (.read a n) s t hinv hack hrun h hidle
  rcases exec_next h with ⟨hidle', _⟩ | ⟨_, hop, ln, hln, _, hp⟩
  · cases hrun.symm.trans hidle'
  obtain rfl := perform_ends_ok hp hrun hidle hok
  obtain ⟨hentry, hheld, hrem⟩ := readLine_ret hln (hinv.counts.1 hrun hop).2
  obtain ⟨hreads, hpushes⟩ := (traceInv_read hrun hop).mp htr
  rw [hheld] at hreads
  rw [hentry, hrem] at hpushes
  cases hp
  refine ⟨rfl, hn ▸ hpushes, ?_, hack', hpos', him', BitVec.eq_of_toNat_eq hrem, rfl, rfl⟩
  rw [hreads]
  exact (List.append_nil _).symm

end Sys2Proof.Machine
end

section
/-! PROOFS. What stops the machine: the pushes of READ and the overrun of the sink, the three stops a state of the
invariant can meet, and that room for N bytes at the launch of a READ keeps it from the overrun (R22, R38, R82, R119,
R120, R128, R130, R136). -/

namespace Sys2Proof.Machine

/-! ### The overrun of the sink -/

/-- A push onto a full sink is the fault of R120. -/
theorem perform_push_full {l : Label} {s : State} (h : s.cfg.sinkCap ≤ s.sink.length) :
    perform (.push l) s = .fault .sinkOverrun := by
  rw [perform, pushByte, if_neg (Nat.not_lt.mpr h)]

/-- No other line raises that fault. -/
theorem perform_eq_sinkOverrun {ln : Line} {s : State} (h : perform ln s = .fault .sinkOverrun) :
    ∃ l, ln = .push l ∧ s.cfg.sinkCap ≤ s.sink.length := by
  cases ln
  case push l =>
    refine ⟨l, rfl, Nat.not_lt.mp fun hroom => ?_⟩
    rw [perform_push hroom] at h
    cases h
  case sendPayload l => simp only [perform, sendPayloadByte] at h; split at h <;> cases h
  case endTimeout => simp only [perform, endTimeout] at h; split at h <;> cases h
  all_goals cases h

/-- A fault other than that of a stray label is raised by the line of the command in flight (R13). -/
theorem exec_eq_fault {i : Instr} {s : State} {f : Fault} (h : exec i s = .fault f) (hf : f ≠ .strayLabel) :
    s.fsm = .run ∧ s.op = i.mnemonic.op ∧ ∃ ln, lineOf i.mnemonic s.upc = some ln ∧ runLine ln s = .fault f := by
  rw [exec_eq_command] at h
  cases hrun : s.fsm with
  | idle => rw [command_idle hrun] at h; cases h
  | run =>
    by_cases hop : s.op = i.mnemonic.op
    · rw [command_run hrun hop] at h
      cases hln : lineOf i.mnemonic s.upc with
      | none => rw [hln] at h; cases h; exact absurd rfl hf
      | some ln => rw [hln] at h; exact ⟨rfl, hop, ln, rfl, h⟩
    · simp only [command, hrun, if_neg hop] at h
      cases h
      exact absurd rfl hf

/-- A command that overruns the sink is a READ at a push, the sink being full (R120). -/
theorem exec_eq_sinkOverrun {i : Instr} {s : State} (h : exec i s = .fault .sinkOverrun) :
    s.fsm = .run ∧ s.op = Mnemonic.read.op ∧ s.cfg.sinkCap ≤ s.sink.length
      ∧ ∃ l, lineOf .read s.upc = some (.push l) := by
  obtain ⟨hrun, hop, ln, hln, hr⟩ := exec_eq_fault h nofun
  unfold runLine at hr
  split at hr
  · cases hr
  · obtain ⟨l, rfl, hfull⟩ := perform_eq_sinkOverrun hr
    have hm := lineOf_push hln
    rw [hm] at hop hln
    exact ⟨hrun, hop, hfull, l, hln⟩

/-- The pushes stand where R84 to R86 have them. -/
theorem readLine_push {u l : Label} (h : lineOf .read u = some (.push l)) :
    u ∈ [Label.r84_9, .r85_11, .r85_14, .r86_6, .r86_11, .r86_14, .r86_18] := by
  cases u <;> cases h <;> decide

/-- Settles O32: at these labels stands a push, which goes on or overruns the sink; no line but a push does the
latter. -/
theorem readPushLines : Obligations.ReadPushLines := by
  unfold Obligations.ReadPushLines
  refine ⟨fun a n s l hat hmem => ?_, fun i s h => ?_⟩
  · have hln : lineOf .read s.upc = some (.push l) :=
      (by decide : ∀ p ∈ _, lineOf .read p.1 = some (.push p.2)) _ hmem
    rw [exec_performs (i := .read a n) hat hln (.inl rfl)]
    exact ⟨perform_push, perform_push_full⟩
  · obtain ⟨hrun, hop, hfull, l, hln⟩ := exec_eq_sinkOverrun h
    exact ⟨hrun, hop, hfull, readLine_push hln⟩

/-! ### What can stop a step -/

/-- An idle sequencer always goes on (R52, R56, R57). -/
theorem sequencerStep_idle_goes_on {s : State} (hidle : s.fsm = .idle) : ∃ t, sequencerStep s = .next t := by
  rw [sequencerStep_of_idle hidle, fetch]
  cases decode s.cmd with
  | command i rest => exact ⟨_, (exec_eq_command i { s with cmd := rest }).trans (command_idle hidle)⟩
  | illegal w why rest => exact ⟨_, rfl⟩
  | incomplete why => exact ⟨_, rfl⟩

/-- A move of another agent goes on, but for a foreign access while a command runs (R119). -/
theorem agentMove_goes_on (m : Move) (s : State) :
    (∃ t, agentMove m s = .next t)
      ∨ (agentMove m s = .refused .foreignAccess ∧ s.fsm = .run ∧ ∃ x, m = .foreign x) := by
  cases m
  case foreign x =>
    cases hf : s.fsm with
    | idle => left; simp only [agentMove, foreignAccess, hf]; exact ⟨_, rfl⟩
    | run => right; simp only [agentMove, foreignAccess, hf]; exact ⟨trivial, trivial, x, rfl⟩
  all_goals exact .inl ⟨_, rfl⟩

/-- In the invariant a command in flight has a line, which goes on but for a push onto a full sink (R13, R95, R104). -/
theorem State.Inv.line_goes_on {s : State} (hinv : s.Inv) (hrun : s.fsm = .run) :
    ∃ m ln, s.op = m.op ∧ lineOf m s.upc = some ln ∧ ((∃ t, perform ln s = .next t)
      ∨ (m = .read ∧ s.cfg.sinkCap ≤ s.sink.length ∧ perform ln s = .fault .sinkOverrun)) := by
  obtain ⟨_, hline, hraise⟩ := hinv.control
  obtain ⟨m, hop, hsome⟩ := hline hrun
  obtain ⟨ln, hln⟩ := Option.isSome_iff_exists.mp hsome
  refine ⟨m, ln, hop, hln, ?_⟩
  by_cases hpush : ∀ l, ln = .push l → s.sink.length < s.cfg.sinkCap
  · refine .inl (perform_goes_on hpush ?_ ?_)
    · rintro l rfl
      obtain ⟨rfl, hu⟩ := lineOf_sendPayload hln
      obtain ⟨_, hlen, hcounts⟩ := hinv.counts.2 hrun hop
      rw [hu] at hcounts
      exact hlen ▸ hcounts
    · rintro rfl
      rw [hraise, lineOf_endTimeout hln]
  · right
    push Not at hpush
    obtain ⟨l, rfl, hfull⟩ := hpush
    exact ⟨lineOf_push hln, hfull, perform_push_full hfull⟩

/-- In the invariant a running sequencer goes on, but for a data-phase action of a primitive with ADDR held and a push
onto a full sink (R120, R130). -/
theorem State.Inv.sequencerStep_run_goes_on {s : State} (hinv : s.Inv) (hrun : s.fsm = .run) :
    (∃ t, sequencerStep s = .next t)
      ∨ (sequencerStep s = .fault .addrNotCleared
        ∧ (s.op = Mnemonic.writeByte.op ∨ s.op = Mnemonic.genStop.op
          ∨ (s.op = Mnemonic.sendAddr.op ∧ s.startDue = false)))
      ∨ (sequencerStep s = .fault .sinkOverrun ∧ s.op = Mnemonic.read.op ∧ s.cfg.sinkCap ≤ s.sink.length) := by
  obtain ⟨m, ln, hop, hln, hgo⟩ := hinv.line_goes_on hrun
  have hstep : sequencerStep s = runLine ln s := by
    rw [sequencerStep_run hrun hop, hln]
    rfl
  rw [hstep]
  by_cases hheld : ln.dataPhase s = true ∧ addrHeld s = true
  · obtain ⟨hd, hh⟩ := hheld
    refine .inr (.inl ⟨runLine_of_addr_held hd hh, ?_⟩)
    cases hm : isTransaction m with
    | true => cases hh.symm.trans (hinv.addr.cleared_at_dataPhase hrun hop hm hln hd)
    | false =>
      rw [dataPhase_eq_when] at hd
      rcases lineOf_dataPhase_primitive hm hln hd with (rfl | rfl) | ⟨rfl, hnone⟩
      · exact .inl hop
      · exact .inr (.inl hop)
      · exact .inr (.inr ⟨hop, hnone⟩)
  · have hperform : runLine ln s = perform ln s := if_neg (by simpa using hheld)
    rw [hperform]
    rcases hgo with hgo | ⟨rfl, hfull, hfault⟩
    · exact .inl hgo
    · exact .inr (.inr ⟨hfault, hop, hfull⟩)

/-- A step is the sequencer's, or the move that stands at the head of the agenda and is not held off. -/
theorem step_turn (s : State) : ∃ g, step s = sequencerStep { s with agenda := g }
    ∨ ∃ m, s.agenda = m :: g ∧ heldOff m s = false ∧ step s = agentMove m { s with agenda := g } := by
  unfold step
  cases ht : turn s with
  | sequencer s' => exact ⟨s'.agenda, .inl (congrArg sequencerStep (turn_sequencer ht))⟩
  | agent m s' =>
    obtain ⟨hs', ha, hh⟩ := turn_agent ht
    exact ⟨s'.agenda, .inr ⟨m, ha, hh, congrArg (agentMove m) hs'⟩⟩

/-- Settles O51: a step is the sequencer's, which goes on while idle and stops for two reasons while running, or a move
of another agent, which stops for one. -/
theorem stepProgress : Obligations.StepProgress := by
  unfold Obligations.StepProgress
  intro s hinv
  obtain ⟨g, hstep | ⟨m, ha, _, hstep⟩⟩ := step_turn s
  · cases hf : s.fsm with
    | idle => exact .inl (hstep ▸ sequencerStep_idle_goes_on hf)
    | run =>
      rw [hstep]
      rcases (hinv.withPort g s.cmd).sequencerStep_run_goes_on hf with hgo | ⟨hfault, hrow⟩ | ⟨hfault, hrow⟩
      · exact .inl hgo
      · exact .inr (.inl ⟨hfault, rfl, hrow⟩)
      · exact .inr (.inr (.inl ⟨hfault, rfl, hrow⟩))
  · rw [hstep]
    rcases agentMove_goes_on m { s with agenda := g } with hgo | ⟨hrefused, hrun, x, rfl⟩
    · exact .inl hgo
    · exact .inr (.inr (.inr ⟨hrefused, hrun, x, by rw [ha]; rfl⟩))

/-! ### Room in the sink -/

/-- `roomInv` of a READ in flight: before the entry there is room for N bytes, behind it for `x[rem]` (R136). -/
theorem roomInv_read {s : State} (hrun : s.fsm = .run) (hop : s.op = Mnemonic.read.op) :
    s.roomInv ↔ s.sink.length + (if s.upc.beforeEntry then s.n else s.rem).toNat ≤ s.cfg.sinkCap := by
  have hb : (s.upc = .r81_1 ∨ s.upc = .r81_2 ∨ s.upc = .r83_1) ↔ s.upc.beforeEntry = true := by
    cases s.upc <;> decide
  simp only [State.roomInv, hrun, hop, true_implies, hb]
  split <;> rfl

/-- A READ at a push stands behind its entry, with a byte to push (R82). -/
theorem readLine_push_counts {s : State} {l : Label} (hinv : s.Inv) (hrun : s.fsm = .run)
    (hop : s.op = Mnemonic.read.op) (hln : lineOf .read s.upc = some (.push l)) :
    s.upc.beforeEntry = false ∧ 1 ≤ s.rem.toNat :=
  ⟨(lineOf_successor_beforeEntry hln (List.mem_singleton_self l)).2.2 rfl,
    (readCounts_push hln (hinv.counts.1 hrun hop).2).1⟩

/-- A line of READ keeps the room for what is still to push: a push takes one place for one byte, and no other line
touches the sink. -/
theorem perform_roomInv {ln : Line} {s t : State} (hinv : s.Inv) (hroom : s.roomInv) (hrun : s.fsm = .run)
    (hop : s.op = Mnemonic.read.op) (hln : lineOf .read s.upc = some ln) (hp : perform ln s = .next t) :
    t.roomInv := by
  rcases perform_counts hp with ⟨hidle, _⟩ | ⟨hf, hop', _, hn, _, hcfg, hcounts⟩
  · exact fun hrun' => by cases hidle.symm.trans hrun'
  rw [roomInv_read hrun hop] at hroom
  rw [roomInv_read (hf.trans hrun) (hop'.trans hop), perform_pushed hp, hn, hcfg]
  rcases perform_control_of_lineOf hop hln hp with ⟨_, hu, _⟩ | ⟨w, l, rfl, _, hu, _⟩ | ⟨_, hidle, _⟩
  · obtain ⟨hbegin, hstay, _⟩ := lineOf_successor_beforeEntry hln hu
    cases ln
    case push l =>
      obtain ⟨hentry, hpos⟩ := readLine_push_counts hinv hrun hop hln
      have hrem : (s.rem - 1).toNat = s.rem.toNat - 1 := by bv_omega
      rw [hentry] at hroom
      rw [hstay rfl, hentry, hcounts.1, List.length_append]
      simp only [Bool.false_eq_true, if_false, hrem, Line.pushed, List.length_singleton] at hroom ⊢
      omega
    case beginRead l =>
      obtain ⟨hentry, hentry'⟩ := hbegin rfl
      rw [hentry] at hroom
      rw [hentry', hcounts.1]
      simpa [Line.pushed] using hroom
    all_goals
      rw [hstay rfl, hcounts.rem_kept rfl rfl]
      simpa only [Line.pushed, List.append_nil] using hroom
  · obtain ⟨hentry, _⟩ := lineOf_wait_bytes hln
    obtain ⟨hentry', _⟩ := timeoutLabel_bytes .read s.n
    rw [hentry] at hroom
    rw [hu, hentry', hcounts.1]
    simpa only [Line.pushed, List.append_nil] using hroom
  · cases (hf.trans hrun).symm.trans hidle

/-- While a command runs another agent leaves it its room: the consumer only makes more, and a reset abandons the
command. -/
theorem agentMove_roomInv {m : Move} {s t : State} (hroom : s.roomInv) (hrun : s.fsm = .run)
    (h : agentMove m s = .next t) : t.roomInv := by
  cases m <;> simp only [agentMove, Host.Outcome.next.injEq] at h
  case sinkPop =>
    subst h
    have hle : (s.sink.drop 1).length ≤ s.sink.length := (List.drop_sublist 1 s.sink).length_le
    intro _ hop
    have hroom := (roomInv_read hrun hop).mp hroom
    refine (roomInv_read (s := { s with sink := s.sink.drop 1 }) hrun hop).mpr ?_ hrun hop
    exact (Nat.add_le_add_right hle _).trans hroom
  case foreign x => simp [foreignAccess, hrun] at h
  case reset => subst h; exact nofun
  case irqRequest n => subst h; unfold requestIrq; split <;> exact hroom
  case irqHandler n => subst h; unfold runHandler; split <;> exact hroom
  all_goals
    subst h
    exact hroom

/-- A turn of the sequencer that overruns the sink is a READ's push onto a full one. -/
theorem sequencerStep_eq_sinkOverrun {s : State} (h : sequencerStep s = .fault .sinkOverrun) :
    s.fsm = .run ∧ s.op = Mnemonic.read.op ∧ s.cfg.sinkCap ≤ s.sink.length
      ∧ ∃ l, lineOf .read s.upc = some (.push l) := by
  cases hf : s.fsm with
  | idle =>
    obtain ⟨t, hgo⟩ := sequencerStep_idle_goes_on hf
    cases hgo.symm.trans h
  | run =>
    simp only [sequencerStep, hf] at h
    cases hi : inFlight s with
    | none => rw [hi] at h; cases h
    | some i =>
      rw [hi] at h
      obtain ⟨_, hrow⟩ := exec_eq_sinkOverrun h
      exact ⟨rfl, hrow⟩

/-- A step that overruns the sink is a READ's push onto a full one. -/
theorem step_eq_sinkOverrun {s : State} (h : step s = .fault .sinkOverrun) :
    s.fsm = .run ∧ s.op = Mnemonic.read.op ∧ s.cfg.sinkCap ≤ s.sink.length
      ∧ ∃ l, lineOf .read s.upc = some (.push l) := by
  obtain ⟨g, hstep | ⟨m, _, _, hstep⟩⟩ := step_turn s <;> rw [hstep] at h
  · exact sequencerStep_eq_sinkOverrun (s := { s with agenda := g }) h
  · rcases agentMove_goes_on m { s with agenda := g } with ⟨_, hgo⟩ | ⟨hrefused, _⟩
    · cases hgo.symm.trans h
    · cases hrefused.symm.trans h

/-- Settles O53: acceptance finds room for N bytes, every line of READ and every other agent keep the room for what is
still to push, and where a push stands a byte is still to push, so the sink is not full. -/
theorem roomAtLaunchPreventsOverrun : Obligations.RoomAtLaunchPreventsOverrun := by
  unfold Obligations.RoomAtLaunchPreventsOverrun
  refine ⟨fun a n s t hidle hroom h => ?_, fun s t hinv hroom hrun h => ?_, fun s hinv hroom h => ?_⟩
  · rw [exec_eq_command, command_idle hidle] at h
    cases h
    exact (roomInv_read rfl rfl).mpr (of_decide_eq_true hroom)
  · obtain ⟨rest, hseq | ⟨m, _, hm⟩⟩ := step_cases h
    · cases hseq with
      | accepts _ _ hidle | rejects _ _ hidle | waits hidle => cases hrun.symm.trans hidle
      | performs m ln _ hop hln _ hp =>
        by_cases hread : m = .read
        · subst hread
          exact perform_roomInv (hinv.withPort rest s.cmd) hroom hrun hop hln hp
        · intro _ hop'
          exact absurd (Mnemonic.op_injective (((perform_descriptor hp).1.trans hop).symm.trans hop')) hread
    · exact agentMove_roomInv (s := { s with agenda := rest }) hroom hrun hm
  · obtain ⟨hrun, hop, hfull, l, hln⟩ := step_eq_sinkOverrun h
    obtain ⟨hentry, hpos⟩ := readLine_push_counts hinv hrun hop hln
    rw [roomInv_read hrun hop, hentry] at hroom
    simp only [Bool.false_eq_true, if_false] at hroom
    omega

end Sys2Proof.Machine
end

section
/-! PROOFS. The ends of a command with an error: requests out of the domain, which report a DONE and nothing else, and
timeouts, with the clean-up of R106 (R96, R102, R104 to R106, R108). -/

namespace Sys2Proof.Machine

/-! ### Requests out of the domain -/

section Checks

variable {m : Mnemonic} {u l : Label} {ln : Line} {s t : State}

/-- The zero test fails (R81, R95, R105). -/
theorem perform_requireCount_zero (h : s.n = 0) :
    perform (.requireCount l) s = .next (raiseNow .invalidRequest s) := by
  rw [perform, if_pos h]

/-- The capacity test fails (R81, R102). -/
theorem perform_requireCapacity_exceeded (h : s.cfg.sinkCap < s.n.toNat) :
    perform (.requireCapacity l) s = .next (raiseNow .overflowRequest s) := by
  rw [perform, if_pos h]

/-- The status a line reports at the end of the command (R62, R101). -/
def Line.endStatus : Line → BitVec 3
  | .requireCount _ => CmdError.invalidRequest.code
  | .requireCapacity _ => CmdError.overflowRequest.code
  | .endTimeout => CmdError.busTimeout.code
  | _ => statusOk

/-- A line that ends the command reports its status. -/
theorem perform_endStatus (hp : perform ln s = .next t) (hrun : s.fsm = .run) (hidle : t.fsm = .idle) :
    t.status = ln.endStatus := by
  rcases perform_reports hp with ⟨hend, _⟩ | ⟨hf, _⟩
  · cases ln <;> cases hend
    case inl.ret.refl => cases hp; rfl
    case inl.endTimeout.refl => obtain ⟨_, _, rfl⟩ := endTimeout_eq_next.mp hp; rfl
    case inl.requireCount.refl =>
      by_cases hn : s.n = 0
      · rw [perform_requireCount_zero hn] at hp; cases hp; rfl
      · rw [perform_requireCount hn] at hp; cases hp; cases hrun.symm.trans hidle
    case inl.requireCapacity.refl =>
      by_cases hn : s.cfg.sinkCap < s.n.toNat
      · rw [perform_requireCapacity_exceeded hn] at hp; cases hp; rfl
      · rw [perform_requireCapacity (Nat.not_lt.mp hn)] at hp; cases hp; cases hrun.symm.trans hidle
  · cases (hf.trans hrun).symm.trans hidle

/-- Only READ has a capacity test (R81, R102). -/
theorem lineOf_endStatus (hm : m ≠ .read) (h : lineOf m u = some ln) : ln.endStatus ≠ 1 := by
  cases m
  case read => exact absurd rfl hm
  all_goals (cases u <;> cases h <;> decide)

end Checks

/-- Settles O42: the capacity test fails before any event, and no other command has a line that ends with its status. -/
theorem oversizedReadOverflows : Obligations.OversizedReadOverflows := by
  unfold Obligations.OversizedReadOverflows
  refine ⟨fun s a n rest ha hidle hu hcmd hn hcap => ?_, fun i s t hm h => ?_⟩
  · refine Turns.run_no_agenda ?_ ha
    refine .accept (i := .read a n) hidle rfl hcmd ?_
    refine .line .read rfl rfl rfl rfl (.inl rfl) (perform_requireCount hn) ?_
    refine .line .read rfl rfl rfl rfl (.inl rfl) (perform_requireCapacity_exceeded hcap) ?_
    refine .nil_of_eq ?_
    simp only [hidle, hu]
    rfl
  · rcases exec_next h with ⟨_, rfl⟩ | ⟨hrun, _, ln, hln, _, hp⟩
    · refine ⟨fun es site htr => ?_, id⟩
      rw [List.self_eq_append_right.mp htr]
      exact List.not_mem_nil
    · have htrace := perform_trace hp
      rcases perform_reports hp with ⟨_, hidle, hdone, _⟩ | ⟨_, hstatus, _, hquiet⟩
      · have hne : t.status ≠ 1 := perform_endStatus hp hrun hidle ▸ lineOf_endStatus hm hln
        refine ⟨fun es site htr hmem => ?_, fun h1 => absurd h1 hne⟩
        rw [List.append_cancel_left (htr.symm.trans htrace), hdone] at hmem
        exact hne (Event.done.inj (List.mem_singleton.mp hmem)).1.symm
      · refine ⟨fun es site htr hmem => ?_, hstatus ▸ id⟩
        rw [List.append_cancel_left (htr.symm.trans htrace)] at hmem
        cases hquiet _ hmem

/-- Settles O43: the zero test is the first line of READ and of WRITE, and an illegal word is ended as it is accepted. -/
theorem invalidRequests : Obligations.InvalidRequests := by
  unfold Obligations.InvalidRequests
  intro s rest ha hidle hu
  refine ⟨fun a hcmd => ?_, fun a hcmd => ?_, fun w why hcmd hw => ?_⟩
  · have hturns : Turns 2 s _ := .accept (i := .read a 0) hidle rfl hcmd
      (.line .read rfl rfl rfl rfl (.inl rfl) (perform_requireCount_zero rfl) (.nil _))
    exact ⟨_, hturns.run_no_agenda ha, rfl, rfl, rfl, rfl⟩
  · have hturns : Turns 2 s _ := .accept (i := .write a 0 []) hidle rfl hcmd
      (.line .write rfl rfl rfl rfl (.inl rfl) (perform_requireCount_zero rfl) (.nil _))
    exact ⟨_, hturns.run_no_agenda ha, rfl, rfl, rfl, rfl⟩
  · have hstep := (acceptanceLatchesCommand s rest ha hidle hu).2 w why hw hcmd
    exact ⟨1, _, run_of_step hstep, rfl, rfl, hidle, rfl⟩

/-! ### Timeouts -/

/-- From `s`, at the first line of the clean-up, to `t` a command of row `m` ended with a timeout of the site `w`: ACK,
POS and the trace apart it changed the same for every command (R104, R106). -/
structure TimedOut (m : Mnemonic) (w : Site) (s t : State) : Prop where
  frame : t = { s with
    k := 0, raising := none, status := 2, site := w.number, fsm := .idle, upc := .idle, pos := t.pos, ack := t.ack,
    s1Latch := t.s1Latch, trace := t.trace }
  read_two : m = .read → s.n = 2 → t.pos = false ∧ t.ack = true
    ∧ t.trace = s.trace ++ [.cw .pos false, .cw .ack true, .done 2 w.number]
  read_other : m = .read → s.n ≠ 2 → t.pos = s.pos ∧ t.ack = true
    ∧ t.trace = s.trace ++ [.cw .ack true, .done 2 w.number]
  not_read : m ≠ .read → t.pos = s.pos ∧ t.ack = s.ack ∧ t.trace = s.trace ++ [.done 2 w.number]

section CleanUp

variable {m : Mnemonic} {w : Site} {l : Label} {s : State}

/-- The last line of a timeout (R104). -/
theorem endTimeout_turns (hrun : s.fsm = .run) (hop : s.op = m.op) (hu : s.upc = .r104_2)
    (hln : lineOf m .r104_2 = some .endTimeout) (hw : s.raising = some w) : Turns 1 s { s with
      k := 0, raising := none, status := 2, site := w.number, fsm := .idle, upc := .idle,
      trace := s.trace ++ [.done 2 w.number] } :=
  .line m hrun hop hu hln (.inl rfl) (endTimeout_eq_next.mpr ⟨w, hw, rfl⟩) (.nil _)

/-- R106.2 and what follows it. -/
theorem setAck_turns (hrun : s.fsm = .run) (hop : s.op = Mnemonic.read.op) (hu : s.upc = .r106_2)
    (hw : s.raising = some w) : Turns 2 s { s with
      ack := true, s1Latch := false, k := 0, raising := none, status := 2, site := w.number, fsm := .idle, upc := .idle,
      trace := s.trace ++ [.cw .ack true, .done 2 w.number] } := by
  cases s
  refine .line .read hrun hop hu rfl (.inl rfl) (perform_ctlSet rfl) ?_
  refine Turns.congr (endTimeout_turns (m := .read) hrun hop rfl rfl hw) ?_
  simp only [append_cons_cons]
  rfl

/-- R106.1 and what follows it. -/
theorem clearPos_turns (hrun : s.fsm = .run) (hop : s.op = Mnemonic.read.op) (hu : s.upc = .r106_1)
    (hw : s.raising = some w) : Turns 3 s { s with
      pos := false, ack := true, s1Latch := false, k := 0, raising := none, status := 2, site := w.number, fsm := .idle,
      upc := .idle, trace := s.trace ++ [.cw .pos false, .cw .ack true, .done 2 w.number] } := by
  cases s
  refine .line .read hrun hop hu rfl (.inl rfl) perform_ctlClr ?_
  refine Turns.congr (setAck_turns hrun hop rfl hw) ?_
  simp only [append_cons_cons]
  rfl

/-- A timeout of a READ of two bytes runs R106.1 and R106.2, of any other READ R106.2, of another command neither. -/
theorem cleanUp_turns (hrun : s.fsm = .run) (hop : s.op = m.op) (hu : s.upc = timeoutLabel m s.n)
    (hln : lineOf m .r104_2 = some .endTimeout) (hw : s.raising = some w) : ∃ j t, Turns j s t ∧ TimedOut m w s t := by
  by_cases hm : m = .read
  · subst hm
    by_cases hn : s.n = 2
    · exact ⟨3, _, clearPos_turns hrun hop (hu.trans (if_pos hn)) hw, rfl, fun _ _ => ⟨rfl, rfl, rfl⟩,
        fun _ h => absurd hn h, fun h => absurd rfl h⟩
    · exact ⟨2, _, setAck_turns hrun hop (hu.trans (if_neg hn)) hw, rfl, fun _ h => absurd h hn,
        fun _ _ => ⟨rfl, rfl, rfl⟩, fun h => absurd rfl h⟩
  · have hend : timeoutLabel m s.n = .r104_2 := by
      cases m
      case read => exact absurd rfl hm
      all_goals rfl
    exact ⟨1, _, endTimeout_turns hrun hop (hu.trans hend) hln hw, rfl, fun h => absurd h hm, fun h => absurd h hm,
      fun _ => ⟨rfl, rfl, rfl⟩⟩

/-- A command with a wait has the last line of a timeout (R104). -/
theorem lineOf_r104_2 {u : Label} (h : lineOf m u = some (.wait w l)) : lineOf m .r104_2 = some .endTimeout := by
  cases m
  case clrAddr => cases u <;> cases h
  all_goals rfl

end CleanUp

/-- The last failed poll of a wait and what follows it, to the DONE (R65, R104). -/
theorem run_timeout {m : Mnemonic} {w : Site} {l : Label} {s : State} {B : Nat} (hat : s.standsAt m s.upc)
    (hln : lineOf m s.upc = some (.wait w l)) (hg : s.agenda = []) (hok : w.dataPhase = true → addrHeld s = false)
    (ha : w.awaited s = false) (hb : s.cfg.pollBound = some B) (hk : B ≤ s.k + 1) :
    ∃ j t, Sys2Proof.core.run j s = .next t
      ∧ TimedOut m w ((((pollOnce w s).setK (s.k + 1)).setRaising (some w)).goto (timeoutLabel m s.n)) t := by
  have hstep := step_wait hat hln hg hok
  obtain ⟨hrun, hop, _⟩ := hat
  rw [waitUntil_at_bound hop ha hb hk] at hstep
  obtain ⟨hrun', hop', hn, hg'⟩ : (pollOnce w s).fsm = .run ∧ (pollOnce w s).op = m.op ∧ (pollOnce w s).n = s.n
      ∧ (pollOnce w s).agenda = [] := by
    rw [pollOnce_frame]
    exact ⟨hrun, hop, rfl, hg⟩
  obtain ⟨j, t, hturns, ht⟩ := cleanUp_turns (m := m) (w := w)
    (s := (((pollOnce w s).setK (s.k + 1)).setRaising (some w)).goto (timeoutLabel m s.n))
    hrun' hop' (congrArg (timeoutLabel m) hn.symm) (lineOf_r104_2 hln) rfl
  exact ⟨j + 1, t, (run_of_step hstep).trans (hturns.run_no_agenda hg'), ht⟩

/-- A poll leaves what neither a read of a status register nor one of STOP concerns (R42, R65). -/
theorem pollOnce_leaves (w : Site) (s : State) :
    (pollOnce w s).start = s.start ∧ (pollOnce w s).stop = s.stop ∧ (pollOnce w s).pos = s.pos
      ∧ (pollOnce w s).ack = s.ack ∧ (pollOnce w s).im = s.im ∧ (pollOnce w s).sink = s.sink
      ∧ (pollOnce w s).rem = s.rem ∧ (pollOnce w s).startDue = s.startDue := by
  rw [pollOnce_frame]
  exact ⟨rfl, rfl, rfl, rfl, rfl, rfl, rfl, rfl⟩

/-- Settles O44: the last failed poll leads to the clean-up, which touches ACK and POS alone, and a wait stands outside
every masked window. -/
theorem timeoutCleansUp : Obligations.TimeoutCleansUp := by
  unfold Obligations.TimeoutCleansUp
  intro i s w l B hat hln hg hok ha hb hk
  obtain ⟨j, t, hrun, hframe, htwo, hother, hnot⟩ := run_timeout hat hln hg hok ha hb hk
  obtain ⟨hstart, hstop, hpos, hack, him, hsink, hrem, hdue⟩ := pollOnce_leaves w s
  obtain ⟨_, _, _, hn⟩ := pollOnce_keeps w s
  obtain ⟨_, _, hopen⟩ := lineOf_wait_site hln
  have htrace (es : List Event) : (pollOnce w s).trace ++ es = s.trace ++ w.pollEvent s :: es := by
    rw [pollOnce_trace, List.append_assoc, List.singleton_append]
  simp only [State.goto_n, State.setRaising_n, State.setK_n, State.goto_pos, State.setRaising_pos, State.setK_pos,
    State.goto_ack, State.setRaising_ack, State.setK_ack, State.goto_trace, State.setRaising_trace, State.setK_trace,
    hn, hpos, hack, htrace] at htwo hother hnot
  have him' : t.im = s.im := by rw [hframe]; exact him
  refine ⟨j, t, hrun, ?_, ?_, ?_, ?_, ?_, ?_, ?_, ?_, him', fun hmask => him'.trans (hmask.trans hopen), ?_, ?_, ?_, ?_,
    ?_, htwo, hother, hnot⟩
  all_goals rw [hframe]
  exacts [hstart, hstop, hsink, hrem, rfl, rfl, hdue]

end Sys2Proof.Machine
end

section
/-! PROOFS. Interrupt handlers, which IM holds off, pending requests, and the accesses of other masters (R109, R110,
R119, R134). -/

namespace Sys2Proof.Machine

/-- The move at the head of the agenda is made, unless it is held off (log 2). -/
theorem step_of_move {s : State} {m : Move} {g : List Move} (ha : s.agenda = m :: g) (hm : m ≠ .sequencer)
    (hh : heldOff m s = false) : step s = agentMove m { s with agenda := g } := by
  have hturn : turn s = .agent m { s with agenda := g } := by
    unfold turn
    rw [ha]
    split
    · contradiction
    · rename_i h; cases h; exact absurd rfl hm
    · rename_i h; cases h; rw [hh]; rfl
  rw [step, hturn]

/-- A step is the sequencer's, or the move at the head of the agenda, which is not held off. -/
theorem step_cases_not_held_off {s t : State} (h : step s = .next t) :
    ∃ g, SequencerCase { s with agenda := g } t
      ∨ ∃ m, heldOff m s = false ∧ agentMove m { s with agenda := g } = .next t := by
  obtain ⟨g, hstep | ⟨m, _, hh, hstep⟩⟩ := step_turn s <;> rw [hstep] at h
  · exact ⟨g, .inl (sequencerStep_cases h)⟩
  · exact ⟨g, .inr ⟨m, hh, h⟩⟩

/-! ### Handlers -/

/-- No line of a command shows the event of a handler (R109). -/
theorem Line.handler_not_mem_events (ln : Line) (s t : State) (n : Nat) : .handler n ∉ ln.events s t := by
  intro h
  cases ln <;> simp only [Line.events] at h
  case wait w l => unfold Site.pollEvent at h; cases hw : w.poll <;> simp [hw] at h
  case requireCount | requireCapacity => split at h <;> simp at h
  all_goals simp at h

/-- A turn of the sequencer shows no event of a handler. -/
theorem SequencerCase.trace_ne_handler {s t : State} (h : SequencerCase s t) (n : Nat) :
    t.trace ≠ s.trace ++ [.handler n] := by
  intro htr
  cases h with
  | accepts i rest _ _ ht => subst ht; simp [accepted, accept] at htr
  | rejects w rest _ ht => subst ht; simp [acceptIllegal, raiseNow] at htr
  | waits _ ht => subst ht; simp at htr
  | performs m ln _ _ _ _ hp =>
    rw [perform_trace hp] at htr
    exact ln.handler_not_mem_events s t n (List.append_cancel_left htr ▸ List.mem_singleton_self _)

/-- Of the other agents' moves only a handler leaves an event (R109, R134). -/
theorem agentMove_trace_or_handler {m : Move} {s t : State} (h : agentMove m s = .next t) :
    t.trace = s.trace ∨ ∃ n, m = .irqHandler n := by
  cases m <;> simp only [agentMove, Host.Outcome.next.injEq] at h
  case irqHandler n => exact .inr ⟨n, rfl⟩
  case irqRequest n => subst h; unfold requestIrq; split <;> exact .inl rfl
  case foreign x =>
    unfold foreignAccess at h
    split at h <;> cases h
    rw [foreignEffect_frame]
    exact .inl rfl
  all_goals exact .inl (by subst h; rfl)

/-! ### Pending requests -/

/-- No line touches the pending requests: they are in no line's frame (R110). -/
theorem perform_pending {ln : Line} {s t : State} (hp : perform ln s = .next t) : t.pending = s.pending := by
  have hf := perform_frame hp
  cases ln <;> simp only [Line.frame] at hf <;> rw [hf]
  case ctlSet f l | ctlClr f l => cases f <;> rfl

/-- A turn of the sequencer leaves the pending requests (R110). -/
theorem SequencerCase.pending {s t : State} (h : SequencerCase s t) : t.pending = s.pending := by
  cases h with
  | accepts i rest _ _ ht => subst ht; rfl
  | rejects w rest _ ht => subst ht; rfl
  | waits _ ht => subst ht; rfl
  | performs m ln _ _ _ _ hp => exact perform_pending hp

/-- Of the other agents' moves only a handler takes a pending request (R110). -/
theorem agentMove_keeps_pending {m : Move} {s t : State} (h : agentMove m s = .next t)
    (hm : ∀ n, m ≠ .irqHandler n) : ∀ n ∈ s.pending, n ∈ t.pending := by
  cases m <;> simp only [agentMove, Host.Outcome.next.injEq] at h
  case irqHandler n => exact absurd rfl (hm n)
  case irqRequest n =>
    subst h
    unfold requestIrq
    split
    · exact fun _ => id
    · exact fun _ => List.mem_append_left _
  case foreign x =>
    unfold foreignAccess at h
    split at h <;> cases h
    rw [foreignEffect_frame]
    exact fun _ => id
  all_goals (subst h; exact fun _ => id)

/-- Settles O55: IM holds every handler off, nothing but a handler leaves its event or takes a request, and neither the
arrival of a request nor, with IM 0, a handler is held off. -/
theorem handlersHeldOffWhileMasked : Obligations.HandlersHeldOffWhileMasked := by
  unfold Obligations.HandlersHeldOffWhileMasked
  refine ⟨fun s t n h htr => ?_, fun s t him h => ?_, fun s n rest ha him hn => ?_, fun s n rest ha => ?_⟩
  · obtain ⟨g, hseq | ⟨m, hh, hm⟩⟩ := step_cases_not_held_off h
    · exact absurd htr (hseq.trace_ne_handler n)
    · rcases agentMove_trace_or_handler hm with hquiet | ⟨_, rfl⟩
      · simp [htr] at hquiet
      · exact hh
  · obtain ⟨g, hseq | ⟨m, hh, hm⟩⟩ := step_cases_not_held_off h
    · rw [hseq.pending]
      exact fun _ => id
    · refine agentMove_keeps_pending (s := { s with agenda := g }) hm ?_
      rintro n rfl
      cases him.symm.trans hh
  · rw [step_of_move ha nofun him, agentMove, runHandler, if_pos hn]
    rfl
  · refine ⟨_, step_of_move ha nofun rfl, ?_⟩
    by_cases hn : n ∈ s.pending
    · simp only [requestIrq, if_pos hn]
      exact ⟨hn, fun _ => id, trivial⟩
    · simp only [requestIrq, if_neg hn]
      exact ⟨List.mem_append_right _ (List.mem_singleton_self n), fun _ => List.mem_append_left _, trivial⟩

/-! ### Other masters -/

/-- Settles O60: a foreign access is never held off; it is refused while a command runs, and while the sequencer is idle
it has its effect in the controller. -/
theorem foreignAccessRefusedWhileRunning : Obligations.ForeignAccessRefusedWhileRunning := by
  unfold Obligations.ForeignAccessRefusedWhileRunning
  intro s x rest ha
  rw [step_of_move ha nofun rfl, agentMove, foreignAccess]
  refine ⟨fun hrun => ?_, fun hidle => ?_⟩
  · simp only [hrun]
  · simp only [hidle]
    exact ⟨_, rfl, foreignEffect_frame x _⟩

end Sys2Proof.Machine
end

section
/-! PROOFS. The reset input, whatever command runs when it comes (R125 to R127). -/

namespace Sys2Proof.Machine

/-- A reset at the head of the agenda is never held off, not even with IM 1 or inside a masked window: the step is the
reset of the sequencer, whatever command runs (R126; log 2). -/
theorem step_of_reset {s : State} {rest : List Move} (ha : s.agenda = .reset :: rest) :
    step s = .next (resetSequencer { s with agenda := rest }) :=
  step_of_move ha nofun rfl

/-- Settles O59: the step is the reset of the sequencer, which writes group S alone. -/
theorem resetAbandonsCommand : Obligations.ResetAbandonsCommand := by
  unfold Obligations.ResetAbandonsCommand
  intro s rest ha
  refine ⟨_, step_of_reset ha, ?_⟩
  simp only [resetSequencer, and_self]

end Sys2Proof.Machine
end
